-- ==== Sys2Proof/Word.lean ====
section
/-! DEFINITION. The widths of 00_scope.md (R8, R9, R12, R16): bytes, host words, addresses, and the fixed-length arrays the
registers of 10_state.md are made of. -/

namespace Sys2Proof

/-- A byte, 0..255 (R12). Bit `i` has weight `2^i` (R13). -/
abbrev Byte := BitVec 8

/-- The host's data word and the command word: `DATA_BITS` = 32 (R9, R90). -/
abbrev Word := BitVec 32

/-- A host word address: `ADDR_BITS` = 12 (R9, R60). -/
abbrev Addr := BitVec 12

/-- The cap of `SBFIND`: `CAP_BITS` = 16 (R9, R92). -/
abbrev Cap := BitVec 16

/-- 256 bytes indexed by a byte: an S-box or an inverse S-box (`SBOX_LEN`, R8). -/
abbrev Table := Vector Byte 256

/-- 16 bytes: a cipher key or a cipher block (`KEY_LEN`, `BLOCK_LEN`, R8). -/
abbrev Block := Vector Byte 16

/-- Eight row bytes: bit `col` of row `row` is `M[row][col]` (R30, R120). -/
abbrev Matrix := Vector Byte 8

/-- A key-schedule word `[b0, b1, b2, b3]`; `b0` is its first byte (R16). -/
abbrev KeyWord := Vector Byte 4

/-- The round key schedule: `NWORDS` = 44 words (R8, R38). -/
abbrev Schedule := Vector KeyWord 44

/-- The FWHT work vector: 256 entries of `W_BITS` = 32 bits, two's complement (R9, R37). -/
abbrev WorkVector := Vector Word 256

end Sys2Proof
end

