-- ==== Sys2Proof/Syntax.lean ====
section
/-! DEFINITION. The seventeen commands of 30_encoding.md R93, the byte fields of a command word (R90) and the four formats
(R91). -/

namespace Sys2Proof

/-- One constructor per row of the opcode map (R93). Operands are unsigned and taken from the word as they stand (R92). -/
inductive Instr where
  | nop
  | sbclr
  | keyclr
  | blkclr
  | gfmul (a b : Byte)
  | gfinv (a : Byte)
  | affrnd
  | afftst
  | affapp (a : Byte)
  | sbbld
  | sbfind (cap : Cap)
  | sbchk
  | kexp
  | enc
  | dec
  | fwht
  | analyze
  deriving DecidableEq, Repr

/-- The four formats of R91: no operand, `a`, `a` and `b`, `cap`. -/
inductive Format where
  | n
  | a
  | ab
  | c
  deriving DecidableEq, Repr

/-- The four byte fields of a command word (R90), not yet checked. -/
structure Fields where
  opc : Byte
  a   : Byte
  b   : Byte
  rsv : Byte
  deriving DecidableEq, Repr

/-- Why a word is no command, in the order R98 tests: the reserved field, the opcode, an operand field the format does not
use. -/
inductive IllegalWord where
  | reservedField
  | unknownOpcode
  | unusedOperandField
  deriving DecidableEq, Repr

end Sys2Proof
end

