-- ==== Sys2Proof/WellFormed.lean ====
section
/-! DEFINITION. Which field combinations make a command word (R91, R93, R94): three checks on the unchecked byte fields.
The operands of `Instr` are bit vectors of the widths of R92, so every term of `Instr` has legal fields. -/

namespace Sys2Proof

/-- The format of an opcode, the second and fourth columns of R93; `none` for an opcode that R93 does not list. -/
def opcodeFormat (opc : Byte) : Option Format :=
  match opc.toNat with
  | 0x00 | 0x01 | 0x02 | 0x03 => some .n
  | 0x10 => some .ab
  | 0x11 => some .a
  | 0x20 | 0x21 => some .n
  | 0x22 => some .a
  | 0x23 => some .n
  | 0x24 => some .c
  | 0x30 | 0x40 | 0x41 | 0x42 | 0x50 | 0x60 => some .n
  | _ => none

/-- "A field a format does not use must be 0" (R91), for the operand fields. -/
def Format.admits : Format → Fields → Bool
  | .n, f => f.a == 0 && f.b == 0
  | .a, f => f.b == 0
  | .ab, _ => true
  | .c, _ => true

/-- The fields of a legal command word (R94, read the other way): reserved field 0, a listed opcode, unused fields 0. -/
def Fields.wellFormed (f : Fields) : Bool :=
  f.rsv == 0 &&
    match opcodeFormat f.opc with
    | none => false
    | some fmt => fmt.admits f

/-- The format of an instruction (R93). -/
def Instr.format : Instr → Format
  | .nop => .n
  | .sbclr => .n
  | .keyclr => .n
  | .blkclr => .n
  | .gfmul _ _ => .ab
  | .gfinv _ => .a
  | .affrnd => .n
  | .afftst => .n
  | .affapp _ => .a
  | .sbbld => .n
  | .sbfind _ => .c
  | .sbchk => .n
  | .kexp => .n
  | .enc => .n
  | .dec => .n
  | .fwht => .n
  | .analyze => .n

end Sys2Proof
end

