-- ==== Sys2Proof/Decode.lean ====
section
/-! DEFINITION. The decoder of 30_encoding.md R98, total on every 32-bit word and rejecting by name, and the encoder after it
(R90 to R93). -/

namespace Sys2Proof

/-- The byte fields of a command word (R90): `OPC` 7:0, `A` 15:8, `B` 23:16, `RSV` 31:24. -/
def fieldsOf (w : Word) : Fields where
  opc := w.extractLsb' 0 8
  a   := w.extractLsb' 8 8
  b   := w.extractLsb' 16 8
  rsv := w.extractLsb' 24 8

/-- The word with the given byte fields (R90). -/
def Fields.toWord (f : Fields) : Word := f.rsv ++ f.b ++ f.a ++ f.opc

/-- `cap = word[23:8]`, that is `256*B + A` (R92). -/
def Fields.cap (f : Fields) : Cap := f.b ++ f.a

/-- A command without operands: both operand fields must be 0 (R98, format `N`). -/
def Fields.formatN (f : Fields) (i : Instr) : Except IllegalWord Instr :=
  if f.a = 0 ∧ f.b = 0 then .ok i else .error .unusedOperandField

/-- A command with the operand `a`: field `B` must be 0 (R98, format `A`). -/
def Fields.formatA (f : Fields) (mk : Byte → Instr) : Except IllegalWord Instr :=
  if f.b = 0 then .ok (mk f.a) else .error .unusedOperandField

/-- Looks up `OPC` in R93 and reads the operands by the row's format (R98). -/
def Fields.decodeOpcode (f : Fields) : Except IllegalWord Instr :=
  match f.opc.toNat with
  | 0x00 => f.formatN .nop
  | 0x01 => f.formatN .sbclr
  | 0x02 => f.formatN .keyclr
  | 0x03 => f.formatN .blkclr
  | 0x10 => .ok (.gfmul f.a f.b)
  | 0x11 => f.formatA .gfinv
  | 0x20 => f.formatN .affrnd
  | 0x21 => f.formatN .afftst
  | 0x22 => f.formatA .affapp
  | 0x23 => f.formatN .sbbld
  | 0x24 => .ok (.sbfind f.cap)
  | 0x30 => f.formatN .sbchk
  | 0x40 => f.formatN .kexp
  | 0x41 => f.formatN .enc
  | 0x42 => f.formatN .dec
  | 0x50 => f.formatN .fwht
  | 0x60 => f.formatN .analyze
  | _ => .error .unknownOpcode

/-- `decode(w)` of R98: the reserved field first, then the opcode, then the unused operand fields. -/
def decode (w : Word) : Except IllegalWord Instr :=
  let f := fieldsOf w
  if f.rsv ≠ 0 then .error .reservedField else f.decodeOpcode

/-- The byte fields of an instruction (R90 to R93). -/
def Instr.fields : Instr → Fields
  | .nop => ⟨0x00, 0, 0, 0⟩
  | .sbclr => ⟨0x01, 0, 0, 0⟩
  | .keyclr => ⟨0x02, 0, 0, 0⟩
  | .blkclr => ⟨0x03, 0, 0, 0⟩
  | .gfmul a b => ⟨0x10, a, b, 0⟩
  | .gfinv a => ⟨0x11, a, 0, 0⟩
  | .affrnd => ⟨0x20, 0, 0, 0⟩
  | .afftst => ⟨0x21, 0, 0, 0⟩
  | .affapp a => ⟨0x22, a, 0, 0⟩
  | .sbbld => ⟨0x23, 0, 0, 0⟩
  | .sbfind cap => ⟨0x24, cap.extractLsb' 0 8, cap.extractLsb' 8 8, 0⟩
  | .sbchk => ⟨0x30, 0, 0, 0⟩
  | .kexp => ⟨0x40, 0, 0, 0⟩
  | .enc => ⟨0x41, 0, 0, 0⟩
  | .dec => ⟨0x42, 0, 0, 0⟩
  | .fwht => ⟨0x50, 0, 0, 0⟩
  | .analyze => ⟨0x60, 0, 0, 0⟩

/-- The command word of an instruction: `encode` of R98. -/
def encode (i : Instr) : Word := i.fields.toWord

/-- An instruction whose byte fields pass every check of `Fields.wellFormed` (R91, R94). -/
def Instr.wellFormed (i : Instr) : Bool := i.fields.wellFormed

/-- The instruction the decoder reads from a table row's bits, numbered as the table numbers them. A command is one word
(R90, R95), bit 0 of the table is bit 0 of that word, and a number that needs more than 32 bits is no command. -/
def decodeTableWord (nbits w : Nat) : Option Instr :=
  let v := w % 2 ^ nbits
  if v < 2 ^ 32 then
    match decode (BitVec.ofNat 32 v) with
    | .ok i => some i
    | .error _ => none
  else none

end Sys2Proof
end

