-- ==== Sys2Proof/Config.lean ====
section
/-! DEFINITION. What is fixed for one core: the constants of 00_scope.md R8 and R9, and the values the spec leaves open
(93_implementation_defined.md U1 and U4), which have no body, so that no proof can see them. -/

namespace Sys2Proof.Config

/-- `ID_VALUE` (R2, R9, R24). -/
def idValue : Word := 0x53425801#32

/-- `C_AFF`, the Affine Constant Vector (R9, R31). -/
def cAff : Byte := 0x63#8

/-- `POLY` = `0x11B` (R8) without its x^8 term, as R110 uses it. -/
def polyLow : Byte := 0x1B#8

/-- `W_IN_MIN` = -2^23 (R9, R191). -/
def wInMin : Int := -8388608

/-- `W_IN_MAX` = 2^23 - 1 (R9, R191). -/
def wInMax : Int := 8388607

/-- `TO_DEN` = 65280 (R8, R212). -/
def toDen : Int := 65280

/-- The entropy source `RNG` (R52; 93 U1): bit `p` of the oracle's infinite sequence. A free value: a claim about the core
holds for every sequence. Assumption log 4. -/
opaque rng : Nat → Bool

/-- The entries of `EINV` that a non-bijective S-box never writes (R39, R151; 93 U4): a free value for each S-box and index,
unobservable at the port. Assumption log 7. -/
opaque einvUnwritten : Table → Byte → Byte

end Sys2Proof.Config
end

