-- ==== Sys2Proof/Machine/State.lean ====
section
/-! DEFINITION. The state of the core (10_state.md R20, R40, R51, R52), the host port's moves and answers (20_memory.md R61),
the locations of the address map (R70), the result codes (60_exceptions.md R260), and the reset state (R55). -/

namespace Sys2Proof.Machine

/-- The ways the core can stop with a fault: NONE. "No point of the core's behaviour is left `undefined`"
(93_implementation_defined.md): a command error is a recorded result (R262), a refused transaction is an answer (R64), and a
`SBFIND 0` that never ends takes steps for ever (R288). No constructor, so nothing raises one; safe. -/
inductive Fault where
  deriving DecidableEq, Repr

/-- The ways the model can refuse to run an instruction. -/
inductive Refusal where
  /-- Raised by an arm of `exec` whose instruction has no meaning yet. Safe. No arm raises it: every command of R93 has its
  meaning. -/
  | notModelled (mnemonic : String)
  deriving DecidableEq, Repr

/-- The error codes of R260. Code 0, success, is no error and is not among them. -/
inductive ErrCode where
  | illegalCommand
  | invalidLength
  | invalidKeyLength
  | invalidBlockLength
  | singularMatrix
  | noValidMatrixFound
  | notReady
  | range
  deriving DecidableEq, Repr

/-- One move of what stands around the core: a host transaction (R61), a step in which the host issues none, or the
assertion of `RST` (R280). Assumption log 1. -/
inductive HostMove where
  | read (addr : Addr)
  | write (addr : Addr) (data : Word)
  | idle
  | rst
  deriving DecidableEq, Repr

/-- The answers of the host port (R61): `OK(data)` to a read, `OK` to a write, `SLVERR` to either. -/
inductive Answer where
  | okData (data : Word)
  | ok
  | slverr
  deriving DecidableEq, Repr

/-- A running `SBFIND` (R51, R128): its cap and its trial counter. Assumption log 3. -/
structure Search where
  cap    : Cap
  trials : Nat
  deriving DecidableEq, Repr

/-- The mapped locations of R70, one constructor per row, with the index of a window's element. -/
inductive Loc where
  | id
  | cmd
  | status
  | esticky
  | res
  | sbLen
  | keyLen
  | blkLen
  | sbPush
  | keyPush
  | blkPush
  | affc
  | affm (r : Fin 8)
  | bitcnt (i : Fin 8)
  | chkFlags
  | nl
  | sacNum
  | bicNl
  | bicSacNum
  | lapNum
  | dapNum
  | du
  | ad
  | toNum
  | ci
  | out (i : Fin 16)
  | key (i : Fin 16)
  | sbox (x : Byte)
  | invtab (a : Byte)
  | w (i : Byte)
  | esbox (x : Byte)
  | einv (y : Byte)
  | rk (i : Fin 44) (j : Fin 4)
  deriving DecidableEq, Repr

/-- The state. From `err` to `anaValid` it is the tuple of R20 with the widths of R40; `rngPos` is the cursor of R52 and
`search` the hidden state of R51. `rngScript`, `inbox` and `answer` are the model's own: a known beginning of the oracle's
sequence, the host's moves still to come, and the answer that the last step gave. -/
structure State where
  /-- `ERR`, the result code of the last command (R26, R260). -/
  err       : Byte
  /-- `ESTICKY`, one sticky bit per error code (R27). -/
  esticky   : BitVec 16
  /-- `RES` (R22). -/
  res       : Byte
  /-- `RES_VALID` (R22, R28). -/
  resValid  : Bool
  /-- `AFFM[0..7]` (R30). -/
  affm      : Matrix
  /-- `SBOX[0..255]` (R32). -/
  sbox      : Table
  /-- `SBLEN`, 0..257 (R32). -/
  sbLen     : Fin 258
  /-- `KEY[0..15]` (R33). -/
  key       : Block
  /-- `KEYLEN`, 0..17 (R33). -/
  keyLen    : Fin 18
  /-- `BLK[0..15]` (R34). -/
  blk       : Block
  /-- `BLKLEN`, 0..17 (R34). -/
  blkLen    : Fin 18
  /-- `OUT[0..15]` (R35). -/
  out       : Block
  /-- `OUT_VALID` (R28, R35). -/
  outValid  : Bool
  /-- `W[0..255]` (R37). -/
  w         : WorkVector
  /-- `ESBOX[0..255]` (R38). -/
  esbox     : Table
  /-- `EINV[0..255]` (R38, R39). -/
  einv      : Table
  /-- `RK[0..43]` (R38). -/
  rk        : Schedule
  /-- `ENG_VALID` (R28, R38). -/
  engValid  : Bool
  /-- `ENG_BIJ` (R28, R38). -/
  engBij    : Bool
  /-- `BITCNT[0..7]` (R40). -/
  bitcnt    : Vector (BitVec 9) 8
  /-- `IS_BIJ` (R28, R40). -/
  isBij     : Bool
  /-- `IS_BAL` (R28, R40). -/
  isBal     : Bool
  /-- `CHK_VALID` (R28, R42). -/
  chkValid  : Bool
  /-- `NL` (R40). -/
  nl        : BitVec 8
  /-- `SAC_NUM` (R40). -/
  sacNum    : BitVec 15
  /-- `BIC_NL` (R40). -/
  bicNl     : BitVec 8
  /-- `BIC_SAC_NUM` (R40). -/
  bicSacNum : BitVec 16
  /-- `LAP_NUM` (R40). -/
  lapNum    : BitVec 9
  /-- `DAP_NUM` (R40, R200). -/
  dapNum    : BitVec 9
  /-- `DU` (R40). -/
  du        : BitVec 9
  /-- `AD` (R40). -/
  ad        : BitVec 4
  /-- `TO_NUM`, signed (R40). -/
  toNum     : BitVec 32
  /-- `CI` (R40). -/
  ci        : BitVec 4
  /-- `ANA_VALID` (R28, R42). -/
  anaValid  : Bool
  /-- `RNGPOS`, the cursor of the entropy source (R52). -/
  rngPos    : Nat
  /-- The model's own: the bits of the oracle's sequence that are known, from position 0 on. -/
  rngScript : List Bool
  /-- The running `SBFIND`, if one runs (R51). -/
  search    : Option Search
  /-- The model's own: the host's moves still to come, the next one first. -/
  inbox     : List HostMove
  /-- The model's own: the answer the last step gave, if it gave one. -/
  answer    : Option Answer
  deriving DecidableEq, Repr

/-- The state right after reset (R55, R280). The contents R55 calls "unspecified, unobservable" are 0 (DESIGN CHOICE,
assumption log 5), the cursor is 0 (DESIGN CHOICE, log 4), and no host move is placed (log 1). -/
def State.reset : State where
  err       := 0
  esticky   := 0
  res       := 0
  resValid  := false
  affm      := Vector.replicate 8 0
  sbox      := Vector.replicate 256 0
  sbLen     := 0
  key       := Vector.replicate 16 0
  keyLen    := 0
  blk       := Vector.replicate 16 0
  blkLen    := 0
  out       := Vector.replicate 16 0
  outValid  := false
  w         := Vector.replicate 256 0
  esbox     := Vector.replicate 256 0
  einv      := Vector.replicate 256 0
  rk        := Vector.replicate 44 (Vector.replicate 4 0)
  engValid  := false
  engBij    := false
  bitcnt    := Vector.replicate 8 0
  isBij     := false
  isBal     := false
  chkValid  := false
  nl        := 0
  sacNum    := 0
  bicNl     := 0
  bicSacNum := 0
  lapNum    := 0
  dapNum    := 0
  du        := 0
  ad        := 0
  toNum     := 0
  ci        := 0
  anaValid  := false
  rngPos    := 0
  rngScript := []
  search    := none
  inbox     := []
  answer    := none

end Sys2Proof.Machine
end

