-- ==== Sys2Proof/Machine/Flags.lean ====
section
/-! DEFINITION. The result codes (60_exceptions.md R260), the words assembled from flags (10_state.md R26, R40) and the
invalidation of results (R42). The core has no arithmetic condition codes (R28). -/

namespace Sys2Proof.Machine

/-- The number of a result code (R260). -/
def ErrCode.code : ErrCode → Nat
  | .illegalCommand => 1
  | .invalidLength => 2
  | .invalidKeyLength => 3
  | .invalidBlockLength => 4
  | .singularMatrix => 5
  | .noValidMatrixFound => 6
  | .notReady => 7
  | .range => 8

/-- A flag at bit position `i` of a 32-bit word. -/
def flagAt (i : Nat) (b : Bool) : Word := bif b then BitVec.twoPow 32 i else 0

/-- `STATUS` (R26). `ENG_BIJ` is "meaningful when `ENG_VALID = 1`, else 0". -/
def statusWord (s : State) : Word :=
  s.err.setWidth 32 ||| flagAt 8 s.resValid ||| flagAt 9 s.chkValid ||| flagAt 10 s.anaValid |||
    flagAt 11 s.engValid ||| flagAt 12 (s.engValid && s.engBij) ||| flagAt 13 s.outValid

/-- `CHKFLAGS` (R40): bit 0 `IS_BIJ`, bit 1 `IS_BAL`. -/
def chkFlagsWord (s : State) : Word := flagAt 0 s.isBij ||| flagAt 1 s.isBal

/-- Every event that changes `SBOX` or `SBLEN` clears `CHK_VALID` and `ANA_VALID` (R42). -/
def invalidate (s : State) : State := { s with chkValid := false, anaValid := false }

/-- `Write(ESTICKY, d)`: `ESTICKY <- ESTICKY AND NOT d[15:0]` (R27, R71). -/
def clearSticky (d : Word) (s : State) : State := { s with esticky := s.esticky &&& ~~~(d.setWidth 16) }

end Sys2Proof.Machine
end

