-- ==== Sys2Proof/Machine/Ops.lean ====
section
/-! DEFINITION. The operations the commands share: building and indexing arrays, ending a command in success or in an error
(60_exceptions.md R262, R263), the result register (10_state.md R22), the push buffers (20_memory.md R67 to R69), the working
S-box as a whole (R32, R42), the entropy source (R52) and the reset event (70_reset_and_hazards.md R280). -/

namespace Sys2Proof.Machine

/-- What `exec` and `step` answer. -/
abbrev Outcome := Host.Outcome State Fault Refusal

/-- The array whose element `i` is `f i`. -/
def tabulate {α : Type} {n : Nat} (f : Fin n → α) : Vector α n := ⟨(List.ofFn f).toArray, by simp⟩

/-- `T[b]` for an array of 256 entries and a byte index (R16). -/
def atByte {α : Type} (t : Vector α 256) (b : Byte) : α := t[b.toNat]'b.isLt

/-- The 256 bytes 0, 1, ..., 255 in ascending order. -/
def allBytes : List Byte := (List.range 256).map (BitVec.ofNat 8)

/-- The byte with bit `i` equal to `f i`: `sum over i of f i * 2^i` (R13, R120). -/
def byteOfBits (f : Fin 8 → Bool) : Byte := BitVec.ofBoolListLE [f 0, f 1, f 2, f 3, f 4, f 5, f 6, f 7]

/-- The number of 1 bits of a byte, its Hamming weight (R14). -/
def popcount (v : Byte) : Nat := (List.range 8).countP v.getLsbD

/-- `parity(v) = popcount(v) % 2`, as a Boolean (R14). -/
def parity (v : Byte) : Bool := popcount v % 2 == 1

/-- `raise <Error>` (R15, R262): `ERR <- code`, `ESTICKY[code] <- 1`, and nothing else. The core's whole exception entry:
there is no saved address, no vector and no mode (R265), and no return (R267). -/
def raise (e : ErrCode) (s : State) : State :=
  { s with err := BitVec.ofNat 8 e.code, esticky := s.esticky ||| BitVec.twoPow 16 e.code }

/-- A successful command performs `ERR <- 0` and leaves `ESTICKY` unchanged (R263). -/
def succeed (s : State) : State := { s with err := 0 }

/-- A command that delivers a byte: `RES <- v; RES_VALID <- 1; ERR <- 0` (R22). -/
def setResult (v : Byte) (s : State) : State := succeed { s with res := v, resValid := true }

/-- `Write(SBPUSH, d)` with a byte `d` (R67). -/
def pushSbox (d : Byte) (s : State) : State :=
  invalidate
    (if h : s.sbLen.val < 256 then
      { s with sbox := s.sbox.set s.sbLen.val d h, sbLen := ⟨s.sbLen.val + 1, by omega⟩ }
    else { s with sbLen := 257 })

/-- `Write(KEYPUSH, d)` with a byte `d` (R68). -/
def pushKey (d : Byte) (s : State) : State :=
  if h : s.keyLen.val < 16 then
    { s with key := s.key.set s.keyLen.val d h, keyLen := ⟨s.keyLen.val + 1, by omega⟩ }
  else { s with keyLen := 17 }

/-- `Write(BLKPUSH, d)` with a byte `d` (R69). -/
def pushBlk (d : Byte) (s : State) : State :=
  if h : s.blkLen.val < 16 then
    { s with blk := s.blk.set s.blkLen.val d h, blkLen := ⟨s.blkLen.val + 1, by omega⟩ }
  else { s with blkLen := 17 }

/-- All 256 entries of the working S-box are written and `SBLEN <- 256` (R32, R42). -/
def replaceSbox (t : Table) (s : State) : State := invalidate { s with sbox := t, sbLen := 256 }

/-- Bit `p` of the oracle's infinite sequence (R52): known where the model's script reaches, the free value `Config.rng`
beyond it (93 U1). Assumption log 4. -/
def rngBit (s : State) (p : Nat) : Bool := s.rngScript.getD p (Config.rng p)

/-- `RNGPOS` after `n` calls of `draw()` (R52). -/
def advanceRng (n : Nat) (s : State) : State := { s with rngPos := s.rngPos + n }

/-- `draw()` (R52): the bit at the cursor, and the cursor advanced by one. -/
def draw (s : State) : Bool × State := (rngBit s s.rngPos, advanceRng 1 s)

/-- `RST` (R280): every register at its reset value. The oracle and its cursor are outside the core and are not touched (R55);
the host's later moves remain. -/
def resetEvent (s : State) : State :=
  { State.reset with rngPos := s.rngPos, rngScript := s.rngScript, inbox := s.inbox }

/-- The port answers `a` (R61). -/
def answerWith (a : Answer) (s : State) : State := { s with answer := some a }

/-- The port gives no answer in this step. -/
def noAnswer (s : State) : State := { s with answer := none }

end Sys2Proof.Machine
end

