-- ==== Sys2Proof/Machine/Gf.lean ====
section
/-! DEFINITION. 40_gf256.md: the field GF(2^8), the Inverse Table, and the commands `GFMUL` and `GFINV`. -/

namespace Sys2Proof.Machine

/-- The shift-and-reduce loop of R110, `n` rounds to go, with the product so far `p`. -/
def multiplyLoop : Nat → Byte → Byte → Byte → Byte
  | 0, p, _, _ => p
  | n + 1, p, a, b =>
    multiplyLoop n
      (bif b.getLsbD 0 then p ^^^ a else p)
      (bif a.getLsbD 7 then (a <<< 1) ^^^ Config.polyLow else a <<< 1)
      (b >>> 1)

/-- `multiply(a, b)` of R110. -/
def multiply (a b : Byte) : Byte := multiplyLoop 8 0 a b

/-- `inverse(a)` of R112: 0 for 0, else the first `b` in 1..255 with `multiply(a, b) = 1`. The search always succeeds, so the
default is never used. -/
def inverse (a : Byte) : Byte :=
  if a = 0 then 0
  else (((List.range' 1 255).map (BitVec.ofNat 8)).find? fun b => multiply a b == 1).getD 0

/-- `INVTAB`, a constant from reset on (R36, R113, R281). -/
def invtab : Table := tabulate fun a => inverse (BitVec.ofNat 8 a.val)

/-- `GFMUL a, b` (R114). -/
def execGfmul (a b : Byte) (s : State) : Outcome := .next (setResult (multiply a b) s)

/-- `GFINV a` (R115). -/
def execGfinv (a : Byte) (s : State) : Outcome := .next (setResult (inverse a) s)

end Sys2Proof.Machine
end

