-- ==== Sys2Proof/Machine/Validator.lean ====
section
/-! DEFINITION. 42_validator.md: the permutation detector, the balance counter, and the command `SBCHK`. -/

namespace Sys2Proof.Machine

/-- The number of members of the set of the table's values (R141). -/
def distinctValues (t : Table) : Nat := (allBytes.filter fun y => t.toList.contains y).length

/-- `is_bijective` of R141: the set of values has exactly 256 members. -/
def isBijective (t : Table) : Bool := distinctValues t == 256

/-- `bit_counts[i]` of R141: the number of `x` with `s[x][i] = 1`. -/
def bitCount (t : Table) (i : Nat) : Nat := t.toList.countP fun y => y.getLsbD i

/-- `is_balanced` of R141: every bit count is 128. -/
def isBalanced (t : Table) : Bool := (List.range 8).all fun i => bitCount t i == 128

/-- `SBCHK` (R140). -/
def execSbchk (s : State) : Outcome :=
  if s.sbLen ≠ 256 then .next (raise .invalidLength s)
  else
    .next (succeed
      { s with
        isBij := isBijective s.sbox
        isBal := isBalanced s.sbox
        bitcnt := tabulate fun i => BitVec.ofNat 9 (bitCount s.sbox i.val)
        chkValid := true })

end Sys2Proof.Machine
end

