-- ==== Sys2Proof/Machine/Aes.lean ====
section
/-! DEFINITION. 43_aes128.md: the inverse S-box, the key schedule, the round functions, block encryption and decryption, and
the commands `KEXP`, `ENC` and `DEC`. -/

namespace Sys2Proof.Machine

/-- The greatest `i` with `s[i] = y`, if `y` is a value of `s`. -/
def lastIndexOf (t : Table) (y : Byte) : Option Byte := allBytes.reverse.find? fun i => atByte t i == y

/-- `inv_sbox(s)` of R151: `t[s[i]] = i` in ascending order, so the entry of a value `y` is the greatest `i` with `s[i] = y`.
An entry that is never written is a free value (R39; 93 U4; assumption log 7). -/
def invSbox (t : Table) : Table :=
  tabulate fun y =>
    (lastIndexOf t (BitVec.ofNat 8 y.val)).getD (Config.einvUnwritten t (BitVec.ofNat 8 y.val))

/-- XOR of key-schedule words is bytewise (R153). -/
def xorWord (u v : KeyWord) : KeyWord := tabulate fun j => u[j] ^^^ v[j]

/-- "rotate left by one byte": `[t1, t2, t3, t0]` (R153). -/
def rotWord (u : KeyWord) : KeyWord := tabulate fun j => u[j + 1]

/-- Each byte substituted through the active S-box (R153). -/
def subWord (t : Table) (u : KeyWord) : KeyWord := tabulate fun j => atByte t u[j]

/-- `RCON[1..10]` (R8, R153). -/
def rcon : Nat → Byte
  | 1 => 0x01
  | 2 => 0x02
  | 3 => 0x04
  | 4 => 0x08
  | 5 => 0x10
  | 6 => 0x20
  | 7 => 0x40
  | 8 => 0x80
  | 9 => 0x1B
  | 10 => 0x36
  | _ => 0

/-- The round constant XORed into the first byte of a word (R153). -/
def addRcon (c : Byte) (u : KeyWord) : KeyWord := tabulate fun j => if j = 0 then u[j] ^^^ c else u[j]

/-- `temp` of R153 for word index `i`, from `word[i-1]`. -/
def scheduleTemp (t : Table) (i : Nat) (prev : KeyWord) : KeyWord :=
  if i % 4 = 0 then addRcon (rcon (i / 4)) (subWord t (rotWord prev)) else prev

/-- The loop of R153 over word indices `i, i+1, ...`, `n` of them, on the words so far, newest first: `word[i-1]` is the first
of them and `word[i-4]` the fourth. -/
def expandLoop (t : Table) : Nat → Nat → List KeyWord → List KeyWord
  | 0, _, ws => ws
  | n + 1, i, ws =>
    let zero := Vector.replicate 4 0
    expandLoop t n (i + 1) (xorWord (scheduleTemp t i (ws.getD 0 zero)) (ws.getD 3 zero) :: ws)

/-- Seed word `i`: key bytes `4i .. 4i+3` in order (R153). -/
def seedWord (k : Block) (i : Fin 4) : KeyWord := tabulate fun j => k[4 * i.val + j.val]

/-- `expand_key(key, s)` of R153. -/
def expandKey (k : Block) (t : Table) : Schedule :=
  let ws := (expandLoop t 40 4 [seedWord k 3, seedWord k 2, seedWord k 1, seedWord k 0]).reverse
  tabulate fun i => ws.getD i.val (Vector.replicate 4 0)

/-- The Cipher State: a 4x4 byte matrix `S[r][c]`, row then column (R16, R50). It exists only inside one command. -/
abbrev CipherState := Vector (Vector Byte 4) 4

/-- The matrix with `S[r][c] = f r c`. -/
def cipherState (f : Fin 4 → Fin 4 → Byte) : CipherState := tabulate fun r => tabulate fun c => f r c

/-- `load_state(b)` of R155: `S[r][c] = b[r + 4*c]`. -/
def loadState (b : Block) : CipherState := cipherState fun r c => b[r.val + 4 * c.val]

/-- `store_state(S)` of R156: `o[r + 4*c] = S[r][c]`. -/
def storeState (m : CipherState) : Block := tabulate fun i => m[i.val % 4][i.val / 4]

/-- `AddRoundKey(S, r)` of R157: `S[row][c] XOR RK[4r+c][row]`, for round 0..10 (R154). -/
def addRoundKey (rk : Schedule) (round : Fin 11) (m : CipherState) : CipherState :=
  cipherState fun r c => m[r][c] ^^^ rk[4 * round.val + c.val][r]

/-- `SubBytes(S)` of R158, and `InvSubBytes(S)` of R162 with the inverse S-box. -/
def subBytes (t : Table) (m : CipherState) : CipherState := cipherState fun r c => atByte t m[r][c]

/-- `ShiftRows(S)` of R159: `S'[r][c] = S[r][(c + r) % 4]`; addition in `Fin 4` is modulo 4. -/
def shiftRows (m : CipherState) : CipherState := cipherState fun r c => m[r][c + r]

/-- `InvShiftRows(S)` of R161: `S'[r][c] = S[r][(c - r) % 4]`. -/
def invShiftRows (m : CipherState) : CipherState := cipherState fun r c => m[r][c - r]

/-- The coefficient matrix whose row `r` is `first` "rotated right by `r` positions" (R163; the rows of `MDS` in R8 and R160
are such rotations too). -/
def rotatedRows (first : KeyWord) : CipherState := cipherState fun r c => first[c - r]

/-- The coefficients `MDS` of R8 and R160, from their first row. -/
def mds : CipherState := rotatedRows #v[2, 3, 1, 1]

/-- The coefficients `IMDS` of R163, from their first row. -/
def imds : CipherState := rotatedRows #v[0x0E, 0x0B, 0x0D, 0x09]

/-- Each column multiplied by a coefficient matrix over GF(2^8): the form of R160 and R163. -/
def mixWith (k : CipherState) (m : CipherState) : CipherState :=
  cipherState fun r c =>
    multiply k[r][0] m[0][c] ^^^ multiply k[r][1] m[1][c] ^^^ multiply k[r][2] m[2][c] ^^^ multiply k[r][3] m[3][c]

/-- `MixColumns(S)` of R160. -/
def mixColumns (m : CipherState) : CipherState := mixWith mds m

/-- `InvMixColumns(S)` of R163. -/
def invMixColumns (m : CipherState) : CipherState := mixWith imds m

/-- A round 1..9 of R164. -/
def encRound (t : Table) (rk : Schedule) (m : CipherState) (round : Fin 11) : CipherState :=
  addRoundKey rk round (mixColumns (shiftRows (subBytes t m)))

/-- `encrypt_block(b)` of R164, with the engine's S-box and round keys. -/
def encryptBlock (t : Table) (rk : Schedule) (b : Block) : Block :=
  let m := [1, 2, 3, 4, 5, 6, 7, 8, 9].foldl (encRound t rk) (addRoundKey rk 0 (loadState b))
  storeState (addRoundKey rk 10 (shiftRows (subBytes t m)))

/-- A round 9..1 of R165. -/
def decRound (t : Table) (rk : Schedule) (m : CipherState) (round : Fin 11) : CipherState :=
  invMixColumns (addRoundKey rk round (subBytes t (invShiftRows m)))

/-- `decrypt_block(b)` of R165, with the engine's inverse S-box `t` and round keys. -/
def decryptBlock (t : Table) (rk : Schedule) (b : Block) : Block :=
  let m := [9, 8, 7, 6, 5, 4, 3, 2, 1].foldl (decRound t rk) (addRoundKey rk 10 (loadState b))
  storeState (addRoundKey rk 0 (subBytes t (invShiftRows m)))

/-- `KEXP` (R152): the key length is tested before the S-box length (R261). -/
def execKexp (s : State) : Outcome :=
  if s.keyLen ≠ 16 then .next (raise .invalidKeyLength s)
  else if s.sbLen ≠ 256 then .next (raise .invalidLength s)
  else
    .next (succeed
      { s with
        esbox := s.sbox
        engBij := isBijective s.sbox
        einv := invSbox s.sbox
        rk := expandKey s.key s.sbox
        engValid := true })

/-- `ENC` (R166), tests in the order of R261. -/
def execEnc (s : State) : Outcome :=
  if s.engValid = false then .next (raise .notReady s)
  else if s.blkLen ≠ 16 then .next (raise .invalidBlockLength s)
  else .next (succeed { s with out := encryptBlock s.esbox s.rk s.blk, outValid := true })

/-- `DEC` (R167, R171), tests in the order of R261. -/
def execDec (s : State) : Outcome :=
  if s.engValid = false then .next (raise .notReady s)
  else if s.blkLen ≠ 16 then .next (raise .invalidBlockLength s)
  else if s.engBij = false then .next (raise .invalidLength s)
  else .next (succeed { s with out := decryptBlock s.einv s.rk s.blk, outValid := true })

end Sys2Proof.Machine
end

