-- ==== Sys2Proof/Machine/Affine.lean ====
section
/-! DEFINITION. 41_affine.md: the matrix sampler, the GF(2) invertibility test, the affine map, the S-box builder, and the
commands `AFFRND`, `AFFTST`, `AFFAPP`, `SBBLD` and `SBFIND`. -/

namespace Sys2Proof.Machine

/-- The matrix that 64 draws from cursor `p` on give (R121): draw `8*row + col` is `M[row][col]`. -/
def matrixAt (s : State) (p : Nat) : Matrix :=
  tabulate fun row => byteOfBits fun col => rngBit s (p + 8 * row.val + col.val)

/-- The pivot of column `col`: the least row at or below the diagonal with a 1 in that column (R123). -/
def pivotRow (m : Matrix) (col : Fin 8) : Option (Fin 8) :=
  (List.finRange 8).find? fun r => decide (col ≤ r) && m[r].getLsbD col.val

/-- `swap rows m[i] and m[j]` (R123). -/
def swapRows (m : Matrix) (i j : Fin 8) : Matrix :=
  tabulate fun r => if r = i then m[j] else if r = j then m[i] else m[r]

/-- Row `col` is XORed into every other row that has a 1 in column `col` (R123). -/
def clearColumn (m : Matrix) (col : Fin 8) : Matrix :=
  tabulate fun r => if r ≠ col ∧ m[r].getLsbD col.val then m[r] ^^^ m[col] else m[r]

/-- One column of the Gaussian elimination of R123; `none` when there is no pivot. -/
def eliminateColumn (m : Matrix) (col : Fin 8) : Option Matrix :=
  (pivotRow m col).map fun p => clearColumn (swapRows m col p) col

/-- `is_invertible(M)` of R123: every column finds a pivot. -/
def isInvertible (m : Matrix) : Bool := ((List.finRange 8).foldlM eliminateColumn m).isSome

/-- `apply_affine(v, M)` of R125: bit `row` is `C_AFF[row]` XOR, over `col`, `M[row][col] AND v[col]`. -/
def applyAffine (v : Byte) (m : Matrix) : Byte :=
  byteOfBits fun row =>
    (List.range 8).foldl (fun bit col => bit ^^ (m[row].getLsbD col && v.getLsbD col)) (Config.cAff.getLsbD row.val)

/-- `build_sbox(M)` of R129: `T[x] = apply_affine(INVTAB[x], M)`. -/
def buildSbox (m : Matrix) : Table := tabulate fun x => applyAffine invtab[x] m

/-- `AFFRND` (R122): 64 draws into `AFFM`. -/
def execAffrnd (s : State) : Outcome :=
  .next (succeed (advanceRng 64 { s with affm := matrixAt s s.rngPos }))

/-- `AFFTST` (R124). -/
def execAfftst (s : State) : Outcome := .next (setResult (bif isInvertible s.affm then 1 else 0) s)

/-- `AFFAPP a` (R126). -/
def execAffapp (a : Byte) (s : State) : Outcome := .next (setResult (applyAffine a s.affm) s)

/-- `SBBLD` (R127). -/
def execSbbld (s : State) : Outcome :=
  if isInvertible s.affm then .next (succeed (replaceSbox (buildSbox s.affm) s))
  else .next (raise .singularMatrix s)

/-- One trial of `SBFIND cap` after `n` trials (R128): 64 draws, then commit, give up, or go on. The cap is compared after
the trial that reaches it; the loop of R128 compares it before the next one, with nothing in between. -/
def searchTrial (cap : Cap) (n : Nat) (s : State) : State :=
  let cand := matrixAt s s.rngPos
  let s := advanceRng 64 { s with search := none }
  if isInvertible cand then succeed (replaceSbox (buildSbox cand) { s with affm := cand })
  else if cap ≠ 0 ∧ cap.toNat ≤ n + 1 then raise .noValidMatrixFound s
  else { s with search := some ⟨cap, n + 1⟩ }

/-- `SBFIND cap` (R128): the command's first trial; `step` makes the later ones (R10). Assumption log 3. -/
def execSbfind (cap : Cap) (s : State) : Outcome := .next (searchTrial cap 0 s)

end Sys2Proof.Machine
end

