-- ==== Sys2Proof/Machine/Control.lean ====
section
/-! DEFINITION. 46_control.md: the commands `NOP`, `SBCLR`, `KEYCLR` and `BLKCLR`. -/

namespace Sys2Proof.Machine

/-- `NOP` (R230). -/
def execNop (s : State) : Outcome := .next (succeed s)

/-- `SBCLR` (R231). -/
def execSbclr (s : State) : Outcome := .next (succeed (invalidate { s with sbLen := 0 }))

/-- `KEYCLR` (R232). -/
def execKeyclr (s : State) : Outcome := .next (succeed { s with keyLen := 0 })

/-- `BLKCLR` (R233). -/
def execBlkclr (s : State) : Outcome := .next (succeed { s with blkLen := 0 })

end Sys2Proof.Machine
end

