-- ==== Sys2Proof/Machine/Fwht.lean ====
section
/-! DEFINITION. 44_fwht.md: the fast Walsh-Hadamard transform and the command `FWHT`. -/

namespace Sys2Proof.Machine

/-- One stage `h` of R190 over the next `n` blocks of size `2h`: in each block the pair `(a[j], a[j+h])` becomes
`(a[j] + a[j+h], a[j] - a[j+h])`, both from the old pair. -/
def butterflyStage (h : Nat) : Nat → List Int → List Int
  | 0, l => l
  | n + 1, l =>
    let lo := l.take h
    let hi := (l.drop h).take h
    List.zipWith (· + ·) lo hi ++ List.zipWith (· - ·) lo hi ++ butterflyStage h n (l.drop (2 * h))

/-- `fwht(a)` of R190 on 256 exact integers. -/
def fwht (a : List Int) : List Int :=
  [1, 2, 4, 8, 16, 32, 64, 128].foldl (fun l h => butterflyStage h (128 / h) l) a

/-- The integers the entries of `W` stand for (R37). -/
def workInts (w : WorkVector) : List Int := w.toList.map BitVec.toInt

/-- Every entry of `W` lies in -2^23 .. 2^23 - 1 (R191). -/
def workInRange (w : WorkVector) : Bool :=
  (workInts w).all fun x => decide (Config.wInMin ≤ x) && decide (x ≤ Config.wInMax)

/-- `fwht` of `W`, stored back as 32-bit patterns; with every input in range each result fits (R191). -/
def workTransform (w : WorkVector) : WorkVector :=
  let r := fwht (workInts w)
  tabulate fun i => BitVec.ofInt 32 (r.getD i.val 0)

/-- `FWHT` (R191). -/
def execFwht (s : State) : Outcome :=
  if workInRange s.w then .next (succeed { s with w := workTransform s.w }) else .next (raise .range s)

end Sys2Proof.Machine
end

