-- ==== Sys2Proof/Machine/Metrics.lean ====
section
/-! DEFINITION. 45_metrics.md: the nine cryptanalytic metrics and the command `ANALYZE`. All values are exact integers. -/

namespace Sys2Proof.Machine

/-- The largest of a list of naturals; 0 for none. -/
def maxNat (l : List Nat) : Nat := l.foldl max 0

/-- The least of a list of naturals. -/
def minNat : List Nat → Nat
  | [] => 0
  | x :: xs => xs.foldl min x

/-- The largest of a list of integers. -/
def maxInt : List Int → Int
  | [] => 0
  | x :: xs => xs.foldl max x

/-- The mask `1 << i`. -/
def bitMask (i : Nat) : Byte := BitVec.twoPow 8 i

/-- The masks, differences or byte values 1..255. -/
def nonzeroBytes : List Byte := (List.range' 1 255).map (BitVec.ofNat 8)

/-- The 28 pairs `j < k` of output bits (R205). -/
def bitPairs : List (Nat × Nat) :=
  (List.range 8).flatMap fun j => (List.range' (j + 1) (7 - j)).map fun k => (j, k)

/-- The mask `(1 << j) OR (1 << k)` of a pair (R205). -/
def pairMask (p : Nat × Nat) : Byte := bitMask p.1 ||| bitMask p.2

/-- `tt(S, v)` of R201: +1 where `parity(S[x] AND v)` is 0, -1 where it is 1. -/
def truthTable (t : Table) (v : Byte) : List Int := t.toList.map fun y => bif parity (y &&& v) then -1 else 1

/-- `walsh(S, v)` of R202. -/
def walsh (t : Table) (v : Byte) : List Int := fwht (truthTable t v)

/-- `nl_of(S, v)` of R202. -/
def nlOf (t : Table) (v : Byte) : Nat := 128 - maxNat ((walsh t v).map Int.natAbs) / 2

/-- `NL(S)` of R203. -/
def metricNl (t : Table) : Nat := minNat ((List.range 8).map fun i => nlOf t (bitMask i))

/-- The output difference `S[x] XOR S[x XOR d]`. -/
def outDiff (t : Table) (d x : Byte) : Byte := atByte t x ^^^ atByte t (x ^^^ d)

/-- `SAC_NUM(S)` of R204. -/
def metricSac (t : Table) : Nat :=
  ((List.range 8).map fun i => (allBytes.map fun x => popcount (outDiff t (bitMask i) x)).sum).sum

/-- `BIC_NL(S)` of R205. -/
def metricBicNl (t : Table) : Nat := minNat (bitPairs.map fun p => nlOf t (pairMask p))

/-- `aval(S, j, k)` of R206. -/
def avalanche (t : Table) (p : Nat × Nat) : Nat :=
  ((List.range 8).map fun i => allBytes.countP fun x => parity (outDiff t (bitMask i) x &&& pairMask p)).sum

/-- `BIC_SAC_NUM(S)` of R206. -/
def metricBicSac (t : Table) : Nat := (bitPairs.map fun p => avalanche t p).sum

/-- `LAP_NUM(S)` of R207: the input mask `u = 0` is left out. -/
def metricLap (t : Table) : Nat := maxNat (nonzeroBytes.map fun v => maxNat (((walsh t v).drop 1).map Int.natAbs))

/-- `ddt_row(S, dx)` of R208: the 256 bucket counts of the output differences. -/
def ddtRow (t : Table) (dx : Byte) : List Nat :=
  let diffs := allBytes.map (outDiff t dx)
  allBytes.map fun dy => diffs.count dy

/-- `DU(S)` of R208. -/
def metricDu (t : Table) : Nat := maxNat (nonzeroBytes.map fun dx => maxNat (ddtRow t dx))

/-- One stage of R209 over the next `n` blocks of size `2*step`: the lower half is XORed into the upper half. -/
def mobiusStage (step : Nat) : Nat → List Bool → List Bool
  | 0, l => l
  | n + 1, l =>
    let lo := l.take step
    let hi := (l.drop step).take step
    lo ++ List.zipWith (· ^^ ·) hi lo ++ mobiusStage step n (l.drop (2 * step))

/-- `mobius(t)` of R209. -/
def mobius (l : List Bool) : List Bool :=
  [1, 2, 4, 8, 16, 32, 64, 128].foldl (fun l h => mobiusStage h (128 / h) l) l

/-- `deg(S, i)` of R210: the largest Hamming weight of a monomial of output bit `i`, 0 if there is none. -/
def bitDegree (t : Table) (i : Nat) : Nat :=
  maxNat (((mobius (t.toList.map fun y => y.getLsbD i)).zip allBytes).map fun c => bif c.1 then popcount c.2 else 0)

/-- `AD(S)` of R210. -/
def metricAd (t : Table) : Nat := maxNat ((List.range 8).map (bitDegree t))

/-- The spectrum is 0 at every mask of Hamming weight 1..k (R211). -/
def immuneTo (spectrum : List Int) (k : Nat) : Bool :=
  (spectrum.zip allBytes).all fun c => !(decide (1 ≤ popcount c.2) && decide (popcount c.2 ≤ k)) || c.1 == 0

/-- `ci_of(S, i)` of R211. -/
def bitImmunity (t : Table) (i : Nat) : Nat :=
  let spectrum := walsh t (bitMask i)
  maxNat ((List.range 9).filter (immuneTo spectrum))

/-- `CI(S)` of R211. -/
def metricCi (t : Table) : Nat := minNat ((List.range 8).map (bitImmunity t))

/-- The autocorrelation of a mask's truth table (R212): the power spectrum transformed again, divided by 256. -/
def autocorrelation (t : Table) (beta : Byte) : List Int :=
  (fwht ((walsh t beta).map fun x => x * x)).map fun x => x / 256

/-- `val(beta)` of R212. -/
def transparency (t : Table) (beta : Byte) : Int :=
  Config.toDen * ((8 - 2 * (popcount beta : Int)).natAbs : Int)
    - ((((autocorrelation t beta).drop 1).map Int.natAbs).sum : Int)

/-- `TO_NUM(S)` of R212. -/
def metricTo (t : Table) : Int := maxInt (nonzeroBytes.map (transparency t))

/-- `ANALYZE` (R200). -/
def execAnalyze (s : State) : Outcome :=
  if s.sbLen ≠ 256 then .next (raise .invalidLength s)
  else
    .next (succeed
      { s with
        nl := BitVec.ofNat 8 (metricNl s.sbox)
        sacNum := BitVec.ofNat 15 (metricSac s.sbox)
        bicNl := BitVec.ofNat 8 (metricBicNl s.sbox)
        bicSacNum := BitVec.ofNat 16 (metricBicSac s.sbox)
        lapNum := BitVec.ofNat 9 (metricLap s.sbox)
        du := BitVec.ofNat 9 (metricDu s.sbox)
        dapNum := BitVec.ofNat 9 (metricDu s.sbox)
        ad := BitVec.ofNat 4 (metricAd s.sbox)
        ci := BitVec.ofNat 4 (metricCi s.sbox)
        toNum := BitVec.ofInt 32 (metricTo s.sbox)
        anaValid := true })

end Sys2Proof.Machine
end

