-- ==== Sys2Proof/Machine/Dispatch.lean ====
section
/-! DEFINITION. One arm per command: the state after the command `i` (30_encoding.md R93). -/

namespace Sys2Proof.Machine

def exec (i : Instr) (s : State) : Host.Outcome State Fault Refusal :=
  match i with
  | .nop => Sys2Proof.Machine.execNop s
  | .sbclr => Sys2Proof.Machine.execSbclr s
  | .keyclr => Sys2Proof.Machine.execKeyclr s
  | .blkclr => Sys2Proof.Machine.execBlkclr s
  | .gfmul a b => Sys2Proof.Machine.execGfmul a b s
  | .gfinv a => Sys2Proof.Machine.execGfinv a s
  | .affrnd => Sys2Proof.Machine.execAffrnd s
  | .afftst => Sys2Proof.Machine.execAfftst s
  | .affapp a => Sys2Proof.Machine.execAffapp a s
  | .sbbld => Sys2Proof.Machine.execSbbld s
  | .sbfind cap => Sys2Proof.Machine.execSbfind cap s
  | .sbchk => Sys2Proof.Machine.execSbchk s
  | .kexp => Sys2Proof.Machine.execKexp s
  | .enc => Sys2Proof.Machine.execEnc s
  | .dec => Sys2Proof.Machine.execDec s
  | .fwht => Sys2Proof.Machine.execFwht s
  | .analyze => Sys2Proof.Machine.execAnalyze s

end Sys2Proof.Machine
end

