-- ==== Sys2Proof/Machine/Operands.lean ====
section
/-! DEFINITION. The address map of 20_memory.md R70: which location a word address names, and at which address a location
stands. The operand bytes of a command are assembled by the decoder (30_encoding.md R92); there are no other operand forms. -/

namespace Sys2Proof.Machine

/-- The location a word address names (R70); `none` for the unmapped addresses (R76). -/
def Loc.ofAddr (addr : Addr) : Option Loc :=
  let n := addr.toNat
  if n = 0x000 then some .id
  else if n = 0x001 then some .cmd
  else if n = 0x002 then some .status
  else if n = 0x003 then some .esticky
  else if n = 0x004 then some .res
  else if n = 0x005 then some .sbLen
  else if n = 0x006 then some .keyLen
  else if n = 0x007 then some .blkLen
  else if n = 0x008 then some .sbPush
  else if n = 0x009 then some .keyPush
  else if n = 0x00A then some .blkPush
  else if n = 0x00B then some .affc
  else if n < 0x010 then none
  else if n < 0x018 then some (.affm (Fin.ofNat 8 (n - 0x010)))
  else if n < 0x020 then none
  else if n < 0x028 then some (.bitcnt (Fin.ofNat 8 (n - 0x020)))
  else if n = 0x028 then some .chkFlags
  else if n < 0x030 then none
  else if n = 0x030 then some .nl
  else if n = 0x031 then some .sacNum
  else if n = 0x032 then some .bicNl
  else if n = 0x033 then some .bicSacNum
  else if n = 0x034 then some .lapNum
  else if n = 0x035 then some .dapNum
  else if n = 0x036 then some .du
  else if n = 0x037 then some .ad
  else if n = 0x038 then some .toNum
  else if n = 0x039 then some .ci
  else if n < 0x040 then none
  else if n < 0x050 then some (.out (Fin.ofNat 16 (n - 0x040)))
  else if n < 0x060 then some (.key (Fin.ofNat 16 (n - 0x050)))
  else if n < 0x100 then none
  else if n < 0x200 then some (.sbox (BitVec.ofNat 8 (n - 0x100)))
  else if n < 0x300 then some (.invtab (BitVec.ofNat 8 (n - 0x200)))
  else if n < 0x400 then some (.w (BitVec.ofNat 8 (n - 0x300)))
  else if n < 0x500 then some (.esbox (BitVec.ofNat 8 (n - 0x400)))
  else if n < 0x600 then some (.einv (BitVec.ofNat 8 (n - 0x500)))
  else if n < 0x6B0 then some (.rk (Fin.ofNat 44 ((n - 0x600) / 4)) (Fin.ofNat 4 ((n - 0x600) % 4)))
  else none

/-- The word address of a location (R70, first column). -/
def Loc.addr : Loc → Addr
  | .id => 0x000
  | .cmd => 0x001
  | .status => 0x002
  | .esticky => 0x003
  | .res => 0x004
  | .sbLen => 0x005
  | .keyLen => 0x006
  | .blkLen => 0x007
  | .sbPush => 0x008
  | .keyPush => 0x009
  | .blkPush => 0x00A
  | .affc => 0x00B
  | .affm r => BitVec.ofNat 12 (0x010 + r.val)
  | .bitcnt i => BitVec.ofNat 12 (0x020 + i.val)
  | .chkFlags => 0x028
  | .nl => 0x030
  | .sacNum => 0x031
  | .bicNl => 0x032
  | .bicSacNum => 0x033
  | .lapNum => 0x034
  | .dapNum => 0x035
  | .du => 0x036
  | .ad => 0x037
  | .toNum => 0x038
  | .ci => 0x039
  | .out i => BitVec.ofNat 12 (0x040 + i.val)
  | .key i => BitVec.ofNat 12 (0x050 + i.val)
  | .sbox x => BitVec.ofNat 12 (0x100 + x.toNat)
  | .invtab a => BitVec.ofNat 12 (0x200 + a.toNat)
  | .w i => BitVec.ofNat 12 (0x300 + i.toNat)
  | .esbox x => BitVec.ofNat 12 (0x400 + x.toNat)
  | .einv y => BitVec.ofNat 12 (0x500 + y.toNat)
  | .rk i j => BitVec.ofNat 12 (0x600 + 4 * i.val + j.val)

end Sys2Proof.Machine
end

