-- ==== Sys2Proof/Machine/Port.lean ====
section
/-! DEFINITION. The host port (20_memory.md R61 to R71): reads with their gates, and every write but the one to `CMD`. -/

namespace Sys2Proof.Machine

/-- A read behind a gate: refused while the gate is closed (R62, R64 case 3). -/
def gated (gate : Bool) (v : Word) : Option Word := bif gate then some v else none

/-- The value of a readable location whose gate is open, as a 32-bit word (R62, R70); `none` is `SLVERR` (R64). Narrow
registers are zero-extended, `W` and `TO_NUM` are two's complement patterns. -/
def readLoc (l : Loc) (s : State) : Option Word :=
  match l with
  | .id => some Config.idValue
  | .cmd => none
  | .status => some (statusWord s)
  | .esticky => some (s.esticky.setWidth 32)
  | .res => gated s.resValid (s.res.setWidth 32)
  | .sbLen => some (BitVec.ofNat 32 s.sbLen.val)
  | .keyLen => some (BitVec.ofNat 32 s.keyLen.val)
  | .blkLen => some (BitVec.ofNat 32 s.blkLen.val)
  | .sbPush => none
  | .keyPush => none
  | .blkPush => none
  | .affc => some (Config.cAff.setWidth 32)
  | .affm r => some (s.affm[r].setWidth 32)
  | .bitcnt i => gated s.chkValid (s.bitcnt[i].setWidth 32)
  | .chkFlags => gated s.chkValid (chkFlagsWord s)
  | .nl => gated s.anaValid (s.nl.setWidth 32)
  | .sacNum => gated s.anaValid (s.sacNum.setWidth 32)
  | .bicNl => gated s.anaValid (s.bicNl.setWidth 32)
  | .bicSacNum => gated s.anaValid (s.bicSacNum.setWidth 32)
  | .lapNum => gated s.anaValid (s.lapNum.setWidth 32)
  | .dapNum => gated s.anaValid (s.dapNum.setWidth 32)
  | .du => gated s.anaValid (s.du.setWidth 32)
  | .ad => gated s.anaValid (s.ad.setWidth 32)
  | .toNum => gated s.anaValid s.toNum
  | .ci => gated s.anaValid (s.ci.setWidth 32)
  | .out i => gated s.outValid (s.out[i].setWidth 32)
  | .key i => gated (s.keyLen == 16) (s.key[i].setWidth 32)
  | .sbox x => gated (s.sbLen == 256) ((atByte s.sbox x).setWidth 32)
  | .invtab a => some ((atByte invtab a).setWidth 32)
  | .w i => some (atByte s.w i)
  | .esbox x => gated s.engValid ((atByte s.esbox x).setWidth 32)
  | .einv y => gated (s.engValid && s.engBij) ((atByte s.einv y).setWidth 32)
  | .rk i j => gated s.engValid (s.rk[i][j].setWidth 32)

/-- `Read(addr)` as a value or a refusal (R62, R64). -/
def readWord (addr : Addr) (s : State) : Option Word := (Loc.ofAddr addr).bind fun l => readLoc l s

/-- A write to a byte location: refused unless `data[31:8] = 0` (R64 case 4), else done with `data[7:0]`. -/
def byteWrite (data : Word) (f : Byte → State) : Option State :=
  if data.extractLsb' 8 24 = 0 then some (f (data.extractLsb' 0 8)) else none

/-- The effect of a write to a location other than `CMD` (R66 to R71); `none` is `SLVERR` (R64). A write to `CMD` executes a
command and is `runCommand`; it is not asked of this function. -/
def storeLoc (l : Loc) (data : Word) (s : State) : Option State :=
  match l with
  | .esticky => some (clearSticky data s)
  | .sbPush => byteWrite data fun d => pushSbox d s
  | .keyPush => byteWrite data fun d => pushKey d s
  | .blkPush => byteWrite data fun d => pushBlk d s
  | .affm r => byteWrite data fun d => { s with affm := s.affm.set r d }
  | .w i => some { s with w := s.w.set i.toNat data i.isLt }
  | .id | .cmd | .status | .res | .sbLen | .keyLen | .blkLen | .affc | .bitcnt _ | .chkFlags | .nl | .sacNum | .bicNl
  | .bicSacNum | .lapNum | .dapNum | .du | .ad | .toNum | .ci | .out _ | .key _ | .sbox _ | .invtab _ | .esbox _
  | .einv _ | .rk _ _ => none

/-- The host transaction `Read(addr)` (R62): the answer, and no change of the core's state. -/
def hostRead (addr : Addr) (s : State) : State :=
  match readWord addr s with
  | some v => answerWith (.okData v) s
  | none => answerWith .slverr s

/-- The host transaction `Write(addr, data)` to a location other than `CMD` (R63, R64). -/
def hostStore (l : Loc) (data : Word) (s : State) : State :=
  match storeLoc l data s with
  | some t => answerWith .ok t
  | none => answerWith .slverr s

end Sys2Proof.Machine
end

