-- ==== Sys2Proof/Machine/Command.lean ====
section
/-! DEFINITION. What a write to `CMD` does (30_encoding.md R90, R94; 20_memory.md R63, R65), and the trials of a running
`SBFIND` (41_affine.md R128). -/

namespace Sys2Proof.Machine

/-- Decodes and executes a command word. A word that is no command raises `IllegalCommand` and does nothing else (R94). -/
def runCommand (word : Word) (s : State) : Outcome :=
  match decode word with
  | .ok i => exec i s
  | .error _ => .next (raise .illegalCommand s)

/-- "The answer to a write to `CMD` is given when the command has ended" (R65): `OK` whatever the result code (R63); none
while a `SBFIND` still runs. -/
def commandAnswer : Outcome → Outcome
  | .next t => .next { t with answer := if t.search = none then some .ok else none }
  | .fault r => .fault r
  | .refused r => .refused r

/-- The host transaction `Write(addr, data)` (R63). -/
def hostWrite (addr : Addr) (data : Word) (s : State) : Outcome :=
  match Loc.ofAddr addr with
  | none => .next (answerWith .slverr s)
  | some .cmd => commandAnswer (runCommand data s)
  | some l => .next (hostStore l data s)

/-- The next trial of a running `SBFIND` (R128). -/
def searchStep (f : Search) (s : State) : Outcome := commandAnswer (.next (searchTrial f.cap f.trials s))

/-- The host's next move, when no command runs. `RST` is taken before this is asked. -/
def hostMove (m : HostMove) (s : State) : Outcome :=
  match m with
  | .read addr => .next (hostRead addr s)
  | .write addr data => hostWrite addr data s
  | .idle => .next (noAnswer s)
  | .rst => .next (resetEvent s)

/-- Where the next step takes a command from: the front of the host's moves, as a write of the word to `CMD`. No command
runs, so the port is free. Assumption log 1. -/
def placeCommand (word : Word) (s : State) : State :=
  { s with search := none, inbox := .write Loc.cmd.addr word :: s.inbox }

end Sys2Proof.Machine
end

