-- ==== Sys2Proof/Machine/Step.lean ====
section
/-! DEFINITION. One step of the core: one host move, or one trial of a running `SBFIND` (00_scope.md R10; 20_memory.md R65,
R78; 70_reset_and_hazards.md R280). -/

namespace Sys2Proof.Machine

/-- One step. `RST` overrides everything, a running command too (R269, R280). While a `SBFIND` runs the port is blocked: the
step is a trial, an idle move passes, and a transaction waits (R65). Otherwise the step is the host's next move; with none
placed the core idles. -/
def step (s : State) : Host.Outcome State Fault Refusal :=
  match s.inbox, s.search with
  | .rst :: rest, _ => .next (resetEvent { s with inbox := rest })
  | .idle :: rest, some f => searchStep f { s with inbox := rest }
  | _, some f => searchStep f s
  | [], none => .next (noAnswer s)
  | m :: rest, none => hostMove m { s with inbox := rest }

/-- The state in which the next step runs the command whose bits are `w`, numbered as the opcode table numbers them. -/
def State.withFetchWord (s : State) (nbits w : Nat) : State := placeCommand (BitVec.ofNat 32 (w % 2 ^ nbits)) s

end Sys2Proof.Machine
end

