-- ==== Sys2Proof/Safety.lean ====
section
/-! DEFINITION. What the statements say of states: the state of a failed command (60_exceptions.md R262), and the invariant
of the core (10_state.md R27, R38, R40, R42; 41_affine.md R128), the gates being what makes its clauses conditional. -/

namespace Sys2Proof.Safety

open Sys2Proof.Machine

/-- The complete state change of a command that fails with code `n` (R262), written on its own. -/
def failedWith (n : Nat) (s : State) : State :=
  { s with err := BitVec.ofNat 8 n, esticky := s.esticky ||| BitVec.ofNat 16 (2 ^ n) }

/-- The outcome of a command that has ended in success (R263): a next state with the result code 0. -/
def Succeeds (o : Outcome) : Prop := ∃ t : State, o = .next t ∧ t.err = 0

/-- The host's moves left after `n` trials of a running `SBFIND`: each trial lets one idle move pass and leaves a transaction
where it is (20_memory.md R65; assumption logs 1 and 3). -/
def afterIdles : Nat → List HostMove → List HostMove
  | n + 1, .idle :: rest => afterIdles n rest
  | _, moves => moves

/-- "Codes 9 to 255 are never written" (R260), and bits 0 and 15:9 of `ESTICKY` are 0 (R27). -/
def CodesInRange (s : State) : Prop :=
  s.err.toNat ≤ 8 ∧ ∀ n, s.esticky.getLsbD n = true → 1 ≤ n ∧ n ≤ 8

/-- The engine is whole: built from one S-box and one key, with its own verdict (R38, R152); no engine, no verdict. -/
def EngineConsistent (s : State) : Prop :=
  (s.engValid = false → s.engBij = false) ∧
    (s.engValid = true →
      s.engBij = isBijective s.esbox ∧ s.einv = invSbox s.esbox ∧ ∃ k : Block, s.rk = expandKey k s.esbox)

/-- "While `CHK_VALID = 1` the result registers describe the S-box now in `SBOX`" (R42), for the validator. -/
def CheckDescribesSbox (s : State) : Prop :=
  s.chkValid = true →
    s.sbLen = 256 ∧ s.isBij = isBijective s.sbox ∧ s.isBal = isBalanced s.sbox ∧
      ∀ i : Fin 8, s.bitcnt[i].toNat = bitCount s.sbox i.val

/-- The same for the metric registers, each with its exact value (R40, R42, R200). -/
def AnalysisDescribesSbox (s : State) : Prop :=
  s.anaValid = true →
    s.sbLen = 256 ∧ s.nl.toNat = metricNl s.sbox ∧ s.sacNum.toNat = metricSac s.sbox ∧
      s.bicNl.toNat = metricBicNl s.sbox ∧ s.bicSacNum.toNat = metricBicSac s.sbox ∧ s.lapNum.toNat = metricLap s.sbox ∧
      s.dapNum = s.du ∧ s.du.toNat = metricDu s.sbox ∧ s.ad.toNat = metricAd s.sbox ∧ s.ci.toNat = metricCi s.sbox ∧
      s.toNum.toInt = metricTo s.sbox

/-- A running `SBFIND` has made a trial and not yet used its cap up (R128). -/
def SearchWithinCap (s : State) : Prop :=
  ∀ f, s.search = some f → 1 ≤ f.trials ∧ (f.cap = 0 ∨ f.trials < f.cap.toNat)

/-- The invariant of the core. The ranges of `SBLEN`, `KEYLEN` and `BLKLEN` (R32 to R34) are in their types. -/
structure Inv (s : State) : Prop where
  codes    : CodesInRange s
  engine   : EngineConsistent s
  checked  : CheckDescribesSbox s
  analysed : AnalysisDescribesSbox s
  search   : SearchWithinCap s

/-- Two states that no transaction, no command and no step can tell apart: they agree on everything but contents whose gate is
closed (R32 to R35, R38 to R40, R55; 93_implementation_defined.md U3 and U4). -/
structure Indistinguishable (s t : State) : Prop where
  err       : s.err = t.err
  esticky   : s.esticky = t.esticky
  resValid  : s.resValid = t.resValid
  res       : s.resValid = true → s.res = t.res
  affm      : s.affm = t.affm
  sbLen     : s.sbLen = t.sbLen
  sbox      : s.sbLen.val ≤ 256 → ∀ (x : Nat) (h : x < 256), x < s.sbLen.val → s.sbox[x] = t.sbox[x]
  keyLen    : s.keyLen = t.keyLen
  key       : s.keyLen.val ≤ 16 → ∀ (x : Nat) (h : x < 16), x < s.keyLen.val → s.key[x] = t.key[x]
  blkLen    : s.blkLen = t.blkLen
  blk       : s.blkLen.val ≤ 16 → ∀ (x : Nat) (h : x < 16), x < s.blkLen.val → s.blk[x] = t.blk[x]
  outValid  : s.outValid = t.outValid
  out       : s.outValid = true → s.out = t.out
  w         : s.w = t.w
  engValid  : s.engValid = t.engValid
  engBij    : s.engValid = true → s.engBij = t.engBij
  esbox     : s.engValid = true → s.esbox = t.esbox
  einv      : s.engValid = true → s.engBij = true → s.einv = t.einv
  rk        : s.engValid = true → s.rk = t.rk
  chkValid  : s.chkValid = t.chkValid
  checked   : s.chkValid = true → s.bitcnt = t.bitcnt ∧ s.isBij = t.isBij ∧ s.isBal = t.isBal
  anaValid  : s.anaValid = t.anaValid
  analysed  : s.anaValid = true →
    s.nl = t.nl ∧ s.sacNum = t.sacNum ∧ s.bicNl = t.bicNl ∧ s.bicSacNum = t.bicSacNum ∧ s.lapNum = t.lapNum ∧
      s.dapNum = t.dapNum ∧ s.du = t.du ∧ s.ad = t.ad ∧ s.toNum = t.toNum ∧ s.ci = t.ci
  rngPos    : s.rngPos = t.rngPos
  rngScript : s.rngScript = t.rngScript
  search    : s.search = t.search
  inbox     : s.inbox = t.inbox
  answer    : s.answer = t.answer

/-- A byte as a polynomial over GF(2): bit `i` is the coefficient of x^i (R110). -/
noncomputable def bytePoly (b : Byte) : Polynomial (ZMod 2) :=
  ∑ i ∈ Finset.range 8, if b.getLsbD i then Polynomial.X ^ i else 0

/-- `POLY` = `0x11B`, that is x^8 + x^4 + x^3 + x + 1 (R8, R110). -/
noncomputable def fieldPoly : Polynomial (ZMod 2) :=
  Polynomial.X ^ 8 + Polynomial.X ^ 4 + Polynomial.X ^ 3 + Polynomial.X + 1

/-- The byte of a number 0..255. -/
def nthByte (x : Nat) : Byte := BitVec.ofNat 8 x

/-- The closed form of a Walsh spectrum entry, as R202 writes it:
`sum over x of (-1)^(parity(S[x] AND v) XOR parity(x AND u))`. -/
def walshSum (t : Table) (v u : Byte) : Int :=
  ∑ x ∈ Finset.range 256, bif parity (atByte t (nthByte x) &&& v) ^^ parity (nthByte x &&& u) then -1 else 1

/-- The autocorrelation of a mask's truth table, as R212 writes it:
`sum over x of tt(S,beta)[x] * tt(S,beta)[x XOR a]`. -/
def correlationSum (t : Table) (beta a : Byte) : Int :=
  ∑ x ∈ Finset.range 256,
    (bif parity (atByte t (nthByte x) &&& beta) then -1 else 1) *
      (bif parity (atByte t (nthByte x ^^^ a) &&& beta) then -1 else 1)

/-- The number of `x` in 0..255 with `S[x] XOR S[x XOR dx] = dy` (R208). -/
def differenceCount (t : Table) (dx dy : Byte) : Nat :=
  ((Finset.range 256).filter fun x => atByte t (nthByte x) ^^^ atByte t (nthByte x ^^^ dx) = dy).card

/-- The coefficient of the monomial of the input bits of `u` in the algebraic normal form of output bit `i`: the XOR, over
all `x` with `x AND u = x`, of bit `i` of `S[x]` (R209). -/
def anfCoefficient (t : Table) (i : Nat) (u : Byte) : Bool :=
  ((Finset.range 256).filter fun x => nthByte x &&& u = nthByte x ∧ (atByte t (nthByte x)).getLsbD i = true).card % 2 == 1

end Sys2Proof.Safety
end

