-- ==== Sys2Proof/Certificates/Slice0/Obligations.lean ====
section
/-! DEFINITION. The statements for the provers, one per obligation: encoding, the port, reset, each command's effect and
frame, the whole-machine rules, and the mathematics the commands compute. -/

open Sys2Proof Sys2Proof.Machine Sys2Proof.Safety

/-! ## Encoding -/

/-- Every instruction has legal fields, and decoding its word gives it back, for every value of every operand (R90 to R93,
R98). -/
def Obligations.DecodeUndoesEncode : Prop :=
  ∀ i : Instr, i.wellFormed = true ∧ decode (encode i) = .ok i

/-- R98 whole: the order of the three tests, what each format reads, and `encode(decode(w)) = w` for every legal word. -/
def Obligations.DecodingIsTotalAndInverted : Prop :=
  ∀ w : Word,
    (w.extractLsb' 24 8 ≠ 0 → decode w = .error .reservedField) ∧
    (w.extractLsb' 24 8 = 0 → opcodeFormat (w.extractLsb' 0 8) = none → decode w = .error .unknownOpcode) ∧
    (w.extractLsb' 24 8 = 0 → opcodeFormat (w.extractLsb' 0 8) = some .n →
      if w.extractLsb' 8 16 ≠ 0 then decode w = .error .unusedOperandField
      else ∃ i : Instr, decode w = .ok i ∧ i.format = .n ∧ i.fields = ⟨w.extractLsb' 0 8, 0, 0, 0⟩) ∧
    (w.extractLsb' 24 8 = 0 → opcodeFormat (w.extractLsb' 0 8) = some .a →
      if w.extractLsb' 16 8 ≠ 0 then decode w = .error .unusedOperandField
      else ∃ i : Instr, decode w = .ok i ∧ i.format = .a ∧ i.fields = ⟨w.extractLsb' 0 8, w.extractLsb' 8 8, 0, 0⟩) ∧
    (w.extractLsb' 24 8 = 0 → opcodeFormat (w.extractLsb' 0 8) = some .ab →
      decode w = .ok (.gfmul (w.extractLsb' 8 8) (w.extractLsb' 16 8))) ∧
    (w.extractLsb' 24 8 = 0 → opcodeFormat (w.extractLsb' 0 8) = some .c →
      decode w = .ok (.sbfind (w.extractLsb' 8 16))) ∧
    (∀ i : Instr, decode w = .ok i → encode i = w)

/-- The opcode map of R93 by match and mask, with the operands of R92: a word decodes to a row's command exactly when
`w AND mask = match` and the operand bits are the operands. -/
def Obligations.DecodeFollowsTheOpcodeMap : Prop :=
  ∀ w : Word,
    (decode w = .ok .nop ↔ w &&& 0xFFFFFFFF#32 = 0x00000000#32) ∧
    (decode w = .ok .sbclr ↔ w &&& 0xFFFFFFFF#32 = 0x00000001#32) ∧
    (decode w = .ok .keyclr ↔ w &&& 0xFFFFFFFF#32 = 0x00000002#32) ∧
    (decode w = .ok .blkclr ↔ w &&& 0xFFFFFFFF#32 = 0x00000003#32) ∧
    (∀ a b : Byte, decode w = .ok (.gfmul a b) ↔
      w &&& 0xFF0000FF#32 = 0x00000010#32 ∧ w.extractLsb' 8 8 = a ∧ w.extractLsb' 16 8 = b) ∧
    (∀ a : Byte, decode w = .ok (.gfinv a) ↔ w &&& 0xFFFF00FF#32 = 0x00000011#32 ∧ w.extractLsb' 8 8 = a) ∧
    (decode w = .ok .affrnd ↔ w &&& 0xFFFFFFFF#32 = 0x00000020#32) ∧
    (decode w = .ok .afftst ↔ w &&& 0xFFFFFFFF#32 = 0x00000021#32) ∧
    (∀ a : Byte, decode w = .ok (.affapp a) ↔ w &&& 0xFFFF00FF#32 = 0x00000022#32 ∧ w.extractLsb' 8 8 = a) ∧
    (decode w = .ok .sbbld ↔ w &&& 0xFFFFFFFF#32 = 0x00000023#32) ∧
    (∀ cap : Cap, decode w = .ok (.sbfind cap) ↔ w &&& 0xFF0000FF#32 = 0x00000024#32 ∧ w.extractLsb' 8 16 = cap) ∧
    (decode w = .ok .sbchk ↔ w &&& 0xFFFFFFFF#32 = 0x00000030#32) ∧
    (decode w = .ok .kexp ↔ w &&& 0xFFFFFFFF#32 = 0x00000040#32) ∧
    (decode w = .ok .enc ↔ w &&& 0xFFFFFFFF#32 = 0x00000041#32) ∧
    (decode w = .ok .dec ↔ w &&& 0xFFFFFFFF#32 = 0x00000042#32) ∧
    (decode w = .ok .fwht ↔ w &&& 0xFFFFFFFF#32 = 0x00000050#32) ∧
    (decode w = .ok .analyze ↔ w &&& 0xFFFFFFFF#32 = 0x00000060#32)

/-- Words written out by hand from R90 to R93, one or more of each family, decode to their commands; two illegal words are
rejected by name. -/
def Obligations.HandWrittenWordsDecode : Prop :=
  decode 0b00000000000000000000000000000001#32 = .ok .sbclr ∧
  decode 0b00000000100000110101011100010000#32 = .ok (.gfmul 0x57 0x83) ∧
  decode 0b00000000000000000101001100010001#32 = .ok (.gfinv 0x53) ∧
  decode 0b00000000000000011111111100100100#32 = .ok (.sbfind 0x01FF) ∧
  decode 0b00000000000000000000000000110000#32 = .ok .sbchk ∧
  decode 0b00000000000000000000000001000010#32 = .ok .dec ∧
  decode 0b00000000000000000000000001010000#32 = .ok .fwht ∧
  decode 0b00000000000000000000000001100000#32 = .ok .analyze ∧
  decode 0b00000000000000000000000000000100#32 = .error .unknownOpcode ∧
  decode 0b11111111111111110000000000100100#32 = .error .reservedField

/-- The address map is one to one: every location's address names it, and an address that names a location is its address
(R70, first column). -/
def Obligations.AddressesNameOneLocation : Prop :=
  (∀ l : Loc, Loc.ofAddr l.addr = some l) ∧ ∀ (a : Addr) (l : Loc), Loc.ofAddr a = some l → l.addr = a

/-! ## The port and the step -/

/-- A step that finds a write of a command's word to `CMD` runs that command on the state without the move, and answers `OK`
when the command has ended (R63, R65, R90). The word may be placed by `withFetchWord`. The move list is the model's (log 1). -/
def Obligations.StepRunsTheDecodedCommand : Prop :=
  ∀ (s t : State) (w : Word) (i : Instr) (rest : List HostMove),
    s.search = none → decode w = .ok i →
    exec i { s with inbox := rest } = .next t →
    step { s with inbox := .write 0x001#12 w :: rest } =
        .next { t with answer := if t.search = none then some .ok else none } ∧
      (s.inbox = rest → step (s.withFetchWord 32 w.toNat) =
        .next { t with answer := if t.search = none then some .ok else none })

/-- R94: a word that is no command raises `IllegalCommand` and does nothing else, and the write answers `OK`. -/
def Obligations.IllegalWordsRaiseIllegalCommand : Prop :=
  ∀ (s : State) (w : Word) (rest : List HostMove),
    s.search = none → s.inbox = .write 0x001#12 w :: rest →
    (w.extractLsb' 24 8 ≠ 0 ∨ opcodeFormat (w.extractLsb' 0 8) = none ∨
      (opcodeFormat (w.extractLsb' 0 8) = some .n ∧ (w.extractLsb' 8 8 ≠ 0 ∨ w.extractLsb' 16 8 ≠ 0)) ∨
      (opcodeFormat (w.extractLsb' 0 8) = some .a ∧ w.extractLsb' 16 8 ≠ 0)) →
    step s = .next { failedWith 1 s with inbox := rest, answer := some .ok }

/-- Nothing stops the core: every state has a next state (93_implementation_defined.md: no behaviour is left undefined). The
spec excepts the endless `SBFIND 0`, which has no next state "by design" (U2): there the next state, one more trial, is the
model's choice (log 3). -/
def Obligations.EveryStateHasANextState : Prop := ∀ s : State, ∃ t : State, step s = .next t

/-- R62: a read changes nothing of the core, and answers the location's value or `SLVERR`. -/
def Obligations.ReadsChangeNothing : Prop :=
  ∀ (s : State) (addr : Addr) (rest : List HostMove),
    s.search = none → s.inbox = .read addr :: rest →
    step s = .next { s with
      inbox := rest
      answer := some (match readWord addr s with | some v => .okData v | none => .slverr) }

/-- The reads of R70, address by address, each with its gate; the write-only locations and the unmapped ranges of R76 have no
value. -/
def Obligations.ReadsFollowTheAddressMap : Prop :=
  ∀ s : State,
    readWord 0x000#12 s = some 0x53425801#32 ∧
    readWord 0x001#12 s = none ∧
    readWord 0x002#12 s = some (statusWord s) ∧
    readWord 0x003#12 s = some (s.esticky.setWidth 32) ∧
    readWord 0x004#12 s = (if s.resValid then some (s.res.setWidth 32) else none) ∧
    readWord 0x005#12 s = some (BitVec.ofNat 32 s.sbLen.val) ∧
    readWord 0x006#12 s = some (BitVec.ofNat 32 s.keyLen.val) ∧
    readWord 0x007#12 s = some (BitVec.ofNat 32 s.blkLen.val) ∧
    readWord 0x008#12 s = none ∧ readWord 0x009#12 s = none ∧ readWord 0x00A#12 s = none ∧
    readWord 0x00B#12 s = some 0x63#32 ∧
    (∀ r : Fin 8, readWord (BitVec.ofNat 12 (0x010 + r.val)) s = some (s.affm[r].setWidth 32)) ∧
    (∀ i : Fin 8, readWord (BitVec.ofNat 12 (0x020 + i.val)) s =
      if s.chkValid then some (s.bitcnt[i].setWidth 32) else none) ∧
    readWord 0x028#12 s =
      (if s.chkValid then some (BitVec.ofNat 32 (s.isBij.toNat + 2 * s.isBal.toNat)) else none) ∧
    readWord 0x030#12 s = (if s.anaValid then some (s.nl.setWidth 32) else none) ∧
    readWord 0x031#12 s = (if s.anaValid then some (s.sacNum.setWidth 32) else none) ∧
    readWord 0x032#12 s = (if s.anaValid then some (s.bicNl.setWidth 32) else none) ∧
    readWord 0x033#12 s = (if s.anaValid then some (s.bicSacNum.setWidth 32) else none) ∧
    readWord 0x034#12 s = (if s.anaValid then some (s.lapNum.setWidth 32) else none) ∧
    readWord 0x035#12 s = (if s.anaValid then some (s.dapNum.setWidth 32) else none) ∧
    readWord 0x036#12 s = (if s.anaValid then some (s.du.setWidth 32) else none) ∧
    readWord 0x037#12 s = (if s.anaValid then some (s.ad.setWidth 32) else none) ∧
    readWord 0x038#12 s = (if s.anaValid then some s.toNum else none) ∧
    readWord 0x039#12 s = (if s.anaValid then some (s.ci.setWidth 32) else none) ∧
    (∀ i : Fin 16, readWord (BitVec.ofNat 12 (0x040 + i.val)) s =
      if s.outValid then some (s.out[i].setWidth 32) else none) ∧
    (∀ i : Fin 16, readWord (BitVec.ofNat 12 (0x050 + i.val)) s =
      if s.keyLen = 16 then some (s.key[i].setWidth 32) else none) ∧
    (∀ x : Fin 256, readWord (BitVec.ofNat 12 (0x100 + x.val)) s =
      if s.sbLen = 256 then some (s.sbox[x].setWidth 32) else none) ∧
    (∀ a : Fin 256, readWord (BitVec.ofNat 12 (0x200 + a.val)) s =
      some ((inverse (BitVec.ofNat 8 a.val)).setWidth 32)) ∧
    (∀ i : Fin 256, readWord (BitVec.ofNat 12 (0x300 + i.val)) s = some s.w[i]) ∧
    (∀ x : Fin 256, readWord (BitVec.ofNat 12 (0x400 + x.val)) s =
      if s.engValid then some (s.esbox[x].setWidth 32) else none) ∧
    (∀ y : Fin 256, readWord (BitVec.ofNat 12 (0x500 + y.val)) s =
      if s.engValid ∧ s.engBij then some (s.einv[y].setWidth 32) else none) ∧
    (∀ (i : Fin 44) (j : Fin 4), readWord (BitVec.ofNat 12 (0x600 + 4 * i.val + j.val)) s =
      if s.engValid then some (s.rk[i][j].setWidth 32) else none) ∧
    (∀ n : Nat, n < 4096 →
      (0x00C ≤ n ∧ n ≤ 0x00F) ∨ (0x018 ≤ n ∧ n ≤ 0x01F) ∨ (0x029 ≤ n ∧ n ≤ 0x02F) ∨ (0x03A ≤ n ∧ n ≤ 0x03F) ∨
        (0x060 ≤ n ∧ n ≤ 0x0FF) ∨ 0x6B0 ≤ n →
      readWord (BitVec.ofNat 12 n) s = none)

/-- `STATUS` bit by bit (R26). `ENG_BIJ` reads 0 while there is no engine. -/
def Obligations.StatusAssemblesTheFlags : Prop :=
  ∀ s : State,
    (statusWord s).extractLsb' 0 8 = s.err ∧
    (statusWord s).getLsbD 8 = s.resValid ∧
    (statusWord s).getLsbD 9 = s.chkValid ∧
    (statusWord s).getLsbD 10 = s.anaValid ∧
    (statusWord s).getLsbD 11 = s.engValid ∧
    (statusWord s).getLsbD 12 = (s.engValid && s.engBij) ∧
    (statusWord s).getLsbD 13 = s.outValid ∧
    (statusWord s).extractLsb' 14 18 = 0

/-- Which writes the port refuses (R63, R64): all but those to `CMD`, `ESTICKY`, the push ports and `AFFM` with a byte, and
`W`. A refused write changes nothing; an accepted one answers `OK`. -/
def Obligations.RefusedWritesChangeNothing : Prop :=
  ∀ (s : State) (addr : Addr) (d : Word) (rest : List HostMove),
    s.search = none → s.inbox = .write addr d :: rest → addr ≠ 0x001#12 →
    if addr = 0x003#12 ∨ (0x300 ≤ addr.toNat ∧ addr.toNat ≤ 0x3FF) ∨
        (d.extractLsb' 8 24 = 0 ∧ ((0x008 ≤ addr.toNat ∧ addr.toNat ≤ 0x00A) ∨ (0x010 ≤ addr.toNat ∧ addr.toNat ≤ 0x017)))
    then ∃ t : State, step s = .next t ∧ t.answer = some .ok
    else step s = .next { s with inbox := rest, answer := some .slverr }

/-- R67: a push to `SBPUSH` appends while there is room, else leaves 257; both clear the result flags and answer `OK`. -/
def Obligations.SbpushAppendsAndInvalidates : Prop :=
  ∀ (s : State) (d : Byte) (rest : List HostMove),
    s.search = none → s.inbox = .write 0x008#12 (d.setWidth 32) :: rest →
    (∀ h : s.sbLen.val < 256, step s = .next { s with
      inbox := rest, answer := some .ok, chkValid := false, anaValid := false
      sbox := s.sbox.set s.sbLen.val d h, sbLen := Fin.ofNat 258 (s.sbLen.val + 1) }) ∧
    (256 ≤ s.sbLen.val → step s = .next { s with
      inbox := rest, answer := some .ok, chkValid := false, anaValid := false, sbLen := 257 })

/-- R68 and R69: the same for `KEYPUSH` and `BLKPUSH`, which clear no flag. -/
def Obligations.KeyAndBlockPushesAppend : Prop :=
  (∀ (s : State) (d : Byte) (rest : List HostMove),
    s.search = none → s.inbox = .write 0x009#12 (d.setWidth 32) :: rest →
    (∀ h : s.keyLen.val < 16, step s = .next { s with
      inbox := rest, answer := some .ok
      key := s.key.set s.keyLen.val d h, keyLen := Fin.ofNat 18 (s.keyLen.val + 1) }) ∧
    (16 ≤ s.keyLen.val → step s = .next { s with inbox := rest, answer := some .ok, keyLen := 17 })) ∧
  (∀ (s : State) (d : Byte) (rest : List HostMove),
    s.search = none → s.inbox = .write 0x00A#12 (d.setWidth 32) :: rest →
    (∀ h : s.blkLen.val < 16, step s = .next { s with
      inbox := rest, answer := some .ok
      blk := s.blk.set s.blkLen.val d h, blkLen := Fin.ofNat 18 (s.blkLen.val + 1) }) ∧
    (16 ≤ s.blkLen.val → step s = .next { s with inbox := rest, answer := some .ok, blkLen := 17 }))

/-- R71: the plain stores to `AFFM` and `W`, and write-1-to-clear of `ESTICKY`. -/
def Obligations.PlainStoresStore : Prop :=
  ∀ (s : State) (d : Word) (rest : List HostMove), s.search = none →
    (∀ r : Fin 8, d.extractLsb' 8 24 = 0 → s.inbox = .write (BitVec.ofNat 12 (0x010 + r.val)) d :: rest →
      step s = .next { s with inbox := rest, answer := some .ok, affm := s.affm.set r.val (d.extractLsb' 0 8) }) ∧
    (∀ i : Fin 256, s.inbox = .write (BitVec.ofNat 12 (0x300 + i.val)) d :: rest →
      step s = .next { s with inbox := rest, answer := some .ok, w := s.w.set i.val d }) ∧
    (s.inbox = .write 0x003#12 d :: rest →
      step s = .next { s with inbox := rest, answer := some .ok, esticky := s.esticky &&& ~~~(d.extractLsb' 0 16) })

/-- While a `SBFIND` runs, a transaction waits and gets no answer of its own: the move stays in front, and no answer is given
before the command has ended (R65). -/
def Obligations.PortIsBlockedWhileSearching : Prop :=
  ∀ (s t : State) (f : Search) (m : HostMove) (rest : List HostMove),
    s.search = some f → s.inbox = m :: rest → m ≠ .rst → m ≠ .idle → step s = .next t →
    t.inbox = s.inbox ∧ t.answer = if t.search = none then some .ok else none

/-- R55 and R280, the event: `RST` ends whatever runs and puts every register the spec gives a reset value at that value; the
oracle and its cursor are not touched, and no answer is given. The contents R55 leaves unspecified are not stated. -/
def Obligations.ResetEventPutsTheResetState : Prop :=
  ∀ (s : State) (rest : List HostMove), s.inbox = .rst :: rest →
    ∃ t : State, step s = .next t ∧
      t.err = 0 ∧ t.esticky = 0 ∧ t.resValid = false ∧ t.affm = Vector.replicate 8 0 ∧
      t.sbLen = 0 ∧ t.keyLen = 0 ∧ t.blkLen = 0 ∧ t.outValid = false ∧ t.w = Vector.replicate 256 0 ∧
      t.engValid = false ∧ t.engBij = false ∧ t.chkValid = false ∧ t.anaValid = false ∧
      t.search = none ∧ t.answer = none ∧ t.inbox = rest ∧ t.rngPos = s.rngPos ∧ t.rngScript = s.rngScript

/-- R55, the state right after reset: every value the spec states for a register, and every gated location refused. -/
def Obligations.ResetStateClosesEveryGate : Prop :=
  State.reset.err = 0 ∧ State.reset.esticky = 0 ∧ State.reset.affm = Vector.replicate 8 0 ∧
    State.reset.w = Vector.replicate 256 0 ∧ State.reset.sbLen = 0 ∧ State.reset.keyLen = 0 ∧ State.reset.blkLen = 0 ∧
    State.reset.resValid = false ∧ State.reset.outValid = false ∧ State.reset.engValid = false ∧
    State.reset.engBij = false ∧ State.reset.chkValid = false ∧ State.reset.anaValid = false ∧
    readWord 0x002#12 State.reset = some 0 ∧
    ∀ n : Nat, n = 0x004 ∨ (0x020 ≤ n ∧ n ≤ 0x028) ∨ (0x030 ≤ n ∧ n ≤ 0x039) ∨ (0x040 ≤ n ∧ n ≤ 0x05F) ∨
        (0x100 ≤ n ∧ n ≤ 0x1FF) ∨ (0x400 ≤ n ∧ n ≤ 0x6AF) →
      readWord (BitVec.ofNat 12 n) State.reset = none

/-! ## Control commands and failures -/

/-- R230 to R233: words, effects and frames of `NOP`, `SBCLR`, `KEYCLR` and `BLKCLR`. -/
def Obligations.ControlCommandsClear : Prop :=
  (encode .nop = 0x00000000#32 ∧ encode .sbclr = 0x00000001#32 ∧ encode .keyclr = 0x00000002#32 ∧
    encode .blkclr = 0x00000003#32) ∧
  ∀ s : State,
    exec .nop s = .next { s with err := 0 } ∧
    exec .sbclr s = .next { s with sbLen := 0, chkValid := false, anaValid := false, err := 0 } ∧
    exec .keyclr s = .next { s with keyLen := 0, err := 0 } ∧
    exec .blkclr s = .next { s with blkLen := 0, err := 0 }

/-- R261 and R262: which command fails when, in the order of the tests, with which code, and with no other state change; a
command succeeds when none of its conditions holds, and nine commands never fail. `SBFIND` is in
`SbfindEndsAtTheFirstInvertibleCandidate` and `SbfindGivesUpAfterItsCap`, illegal words in
`IllegalWordsRaiseIllegalCommand`. -/
def Obligations.FailuresFollowTheCauseTable : Prop :=
  ∀ s : State,
    (isInvertible s.affm = false → exec .sbbld s = .next (failedWith 5 s)) ∧
    (isInvertible s.affm = true → Succeeds (exec .sbbld s)) ∧
    (s.sbLen ≠ 256 → exec .sbchk s = .next (failedWith 2 s)) ∧
    (s.sbLen = 256 → Succeeds (exec .sbchk s)) ∧
    (s.keyLen ≠ 16 → exec .kexp s = .next (failedWith 3 s)) ∧
    (s.keyLen = 16 → s.sbLen ≠ 256 → exec .kexp s = .next (failedWith 2 s)) ∧
    (s.keyLen = 16 → s.sbLen = 256 → Succeeds (exec .kexp s)) ∧
    (s.engValid = false → exec .enc s = .next (failedWith 7 s)) ∧
    (s.engValid = true → s.blkLen ≠ 16 → exec .enc s = .next (failedWith 4 s)) ∧
    (s.engValid = true → s.blkLen = 16 → Succeeds (exec .enc s)) ∧
    (s.engValid = false → exec .dec s = .next (failedWith 7 s)) ∧
    (s.engValid = true → s.blkLen ≠ 16 → exec .dec s = .next (failedWith 4 s)) ∧
    (s.engValid = true → s.blkLen = 16 → s.engBij = false → exec .dec s = .next (failedWith 2 s)) ∧
    (s.engValid = true → s.blkLen = 16 → s.engBij = true → Succeeds (exec .dec s)) ∧
    ((∃ i : Fin 256, s.w[i].toInt < -8388608 ∨ 8388607 < s.w[i].toInt) → exec .fwht s = .next (failedWith 8 s)) ∧
    ((∀ i : Fin 256, -8388608 ≤ s.w[i].toInt ∧ s.w[i].toInt ≤ 8388607) → Succeeds (exec .fwht s)) ∧
    (s.sbLen ≠ 256 → exec .analyze s = .next (failedWith 2 s)) ∧
    (s.sbLen = 256 → Succeeds (exec .analyze s)) ∧
    Succeeds (exec .nop s) ∧ Succeeds (exec .sbclr s) ∧ Succeeds (exec .keyclr s) ∧ Succeeds (exec .blkclr s) ∧
    (∀ a b : Byte, Succeeds (exec (.gfmul a b) s)) ∧ (∀ a : Byte, Succeeds (exec (.gfinv a) s)) ∧
    Succeeds (exec .affrnd s) ∧ Succeeds (exec .afftst s) ∧ ∀ a : Byte, Succeeds (exec (.affapp a) s)

/-- R262 and R263 as one rule over all commands, and over the later trials of `SBFIND`: a command that has ended has `ERR = 0`
and `ESTICKY` as before, or it has failed, with the code's bit set in `ESTICKY` and no other change but the cursor (and, on a
later trial, the search that is over and the answer). That a failing `SBFIND` moves the cursor by the 64 draws of one trial,
whatever its cap, rests on the model's step of one trial (log 3); the whole command's draws are in
`SbfindGivesUpAfterItsCap`. -/
def Obligations.CommandsSucceedOrOnlyRecordAnError : Prop :=
  (∀ (i : Instr) (s t : State), exec i s = .next t → t.search = none → s.search = none →
    (t.err = 0 ∧ t.esticky = s.esticky) ∨
    (∃ n, 2 ≤ n ∧ n ≤ 8 ∧ t = { failedWith n s with rngPos := t.rngPos } ∧
      (t.rngPos = s.rngPos ∨ ∃ cap, i = .sbfind cap ∧ t.rngPos = s.rngPos + 64))) ∧
  (∀ (f : Search) (s t : State), searchStep f s = .next t → t.search = none →
    (t.err = 0 ∧ t.esticky = s.esticky) ∨
    t = { failedWith 6 s with search := none, answer := some .ok, rngPos := s.rngPos + 64 })

/-! ## GF(2^8) -/

/-- R110: `multiply(a, b)` is the product of the polynomials modulo x^8+x^4+x^3+x+1. -/
def Obligations.MultiplyIsThePolynomialProduct : Prop :=
  ∀ a b : Byte, fieldPoly ∣ bytePoly a * bytePoly b - bytePoly (multiply a b)

/-- R111, every law it lists. -/
def Obligations.MultiplyObeysTheFieldLaws : Prop :=
  ∀ a b c : Byte,
    multiply a b = multiply b a ∧
    multiply a (multiply b c) = multiply (multiply a b) c ∧
    multiply a (b ^^^ c) = multiply a b ^^^ multiply a c ∧
    multiply a 1 = a ∧
    multiply a 0 = 0 ∧
    (multiply a b = 0 → a = 0 ∨ b = 0) ∧
    multiply a 2 = (a <<< 1) ^^^ (if a.getLsbD 7 then 0x1B#8 else 0) ∧
    multiply a 3 = multiply a 2 ^^^ a

/-- R112: 0 for 0, else the unique byte whose product with `a` is 1; an involution and so a permutation, that fixes 0 and 1.
The Inverse Table holds it (R113). -/
def Obligations.InverseIsTheUniqueInverse : Prop :=
  inverse 0 = 0 ∧ inverse 1 = 1 ∧ Function.Bijective inverse ∧
    ∀ a : Byte,
      (a ≠ 0 → multiply a (inverse a) = 1 ∧ ∀ b : Byte, multiply a b = 1 → b = inverse a) ∧
      inverse (inverse a) = a ∧
      atByte invtab a = inverse a

/-- R114 and R115: words, results and frames of `GFMUL` and `GFINV`. -/
def Obligations.FieldCommandsWriteTheResult : Prop :=
  ∀ (a b : Byte) (s : State),
    encode (.gfmul a b) = 0#8 ++ b ++ a ++ 0x10#8 ∧
    encode (.gfinv a) = 0#8 ++ 0#8 ++ a ++ 0x11#8 ∧
    exec (.gfmul a b) s = .next { s with res := multiply a b, resValid := true, err := 0 } ∧
    exec (.gfinv a) s = .next { s with res := inverse a, resValid := true, err := 0 }

/-! ## Affine constructor -/

/-- R131 and the converse: the elimination answers true exactly for the matrices whose affine map is a permutation. -/
def Obligations.InvertibleMeansTheAffineMapIsBijective : Prop :=
  ∀ m : Matrix, isInvertible m = true ↔ Function.Bijective fun v : Byte => applyAffine v m

/-- R121 and R122: `AFFRND` takes 64 draws, draw `8*row + col` being bit `col` of row `row`, and changes nothing else but
`ERR`. -/
def Obligations.AffrndFillsTheMatrix : Prop :=
  ∀ s : State, ∃ m : Matrix,
    exec .affrnd s = .next { s with affm := m, rngPos := s.rngPos + 64, err := 0 } ∧
    ∀ row col : Fin 8, m[row].getLsbD col.val = rngBit s (s.rngPos + 8 * row.val + col.val)

/-- R124 to R126: words, results and frames of `AFFTST` and `AFFAPP`; each bit of an `AFFAPP` result is the parity of the row
and the operand, XORed with the constant's bit. -/
def Obligations.MatrixQueriesWriteTheResult : Prop :=
  ∀ (a : Byte) (s : State),
    encode .afftst = 0x00000021#32 ∧
    encode (.affapp a) = 0#8 ++ 0#8 ++ a ++ 0x22#8 ∧
    exec .afftst s = .next { s with res := if isInvertible s.affm then 1 else 0, resValid := true, err := 0 } ∧
    exec (.affapp a) s = .next { s with res := applyAffine a s.affm, resValid := true, err := 0 } ∧
    ∀ row : Fin 8, (applyAffine a s.affm).getLsbD row.val = (parity (s.affm[row] &&& a) ^^ (0x63#8).getLsbD row.val)

/-- R127 and R129: with an invertible `AFFM`, `SBBLD` writes `SBOX[x] = apply_affine(INVTAB[x], AFFM)` for every `x`; its
frame; its failure. -/
def Obligations.SbbldBuildsTheSbox : Prop :=
  encode .sbbld = 0x00000023#32 ∧
  ∀ s : State,
    (isInvertible s.affm = true → ∃ t : Table,
      exec .sbbld s = .next { s with sbox := t, sbLen := 256, chkValid := false, anaValid := false, err := 0 } ∧
      ∀ x : Byte, atByte t x = applyAffine (inverse x) s.affm) ∧
    (isInvertible s.affm = false → exec .sbbld s = .next (failedWith 5 s))

/-- The first trial of `SBFIND` (R128): commit, give up at cap 1, or go on, each with its frame. Stepping trial by trial is
the model's (R10; log 3). -/
def Obligations.SbfindTriesOneCandidate : Prop :=
  ∀ (cap : Cap) (s : State), s.search = none →
    (isInvertible (matrixAt s s.rngPos) = true →
      exec (.sbfind cap) s = .next { s with
        affm := matrixAt s s.rngPos, sbox := buildSbox (matrixAt s s.rngPos), sbLen := 256
        chkValid := false, anaValid := false, err := 0, rngPos := s.rngPos + 64 }) ∧
    (isInvertible (matrixAt s s.rngPos) = false → cap = 1 →
      exec (.sbfind cap) s = .next { failedWith 6 s with rngPos := s.rngPos + 64 }) ∧
    (isInvertible (matrixAt s s.rngPos) = false → cap ≠ 1 →
      exec (.sbfind cap) s = .next { s with rngPos := s.rngPos + 64, search := some ⟨cap, 1⟩ })

/-- R128, the whole command: it ends at the first invertible candidate of the stream, after as many trials, with 64 draws
each, if the cap allows and no `RST` comes before; what it writes, and its frame. Idle moves pass meanwhile. -/
def Obligations.SbfindEndsAtTheFirstInvertibleCandidate : Prop :=
  ∀ (s : State) (cap : Cap) (n : Nat) (rest : List HostMove),
    s.search = none → s.inbox = .write 0x001#12 (encode (.sbfind cap)) :: rest →
    (∀ k, k < n → (afterIdles k rest).head? ≠ some .rst) →
    (∀ k, k < n → isInvertible (matrixAt s (s.rngPos + 64 * k)) = false) →
    isInvertible (matrixAt s (s.rngPos + 64 * n)) = true →
    cap = 0 ∨ n + 1 ≤ cap.toNat →
    (Host.Core.run Sys2Proof.core (n + 1) s : Outcome) = .next { s with
      inbox := afterIdles n rest, answer := some .ok
      affm := matrixAt s (s.rngPos + 64 * n), sbox := buildSbox (matrixAt s (s.rngPos + 64 * n)), sbLen := 256
      chkValid := false, anaValid := false, err := 0, rngPos := s.rngPos + 64 * (n + 1) }

/-- R128: with a cap other than 0 and the first `cap` candidates singular, the command ends with `NoValidMatrixFound` after
`64 * cap` draws if no `RST` comes before, and nothing else changes. Idle moves pass meanwhile. -/
def Obligations.SbfindGivesUpAfterItsCap : Prop :=
  ∀ (s : State) (cap : Cap) (rest : List HostMove),
    s.search = none → s.inbox = .write 0x001#12 (encode (.sbfind cap)) :: rest →
    cap ≠ 0 → (∀ k, k + 1 < cap.toNat → (afterIdles k rest).head? ≠ some .rst) →
    (∀ k, k < cap.toNat → isInvertible (matrixAt s (s.rngPos + 64 * k)) = false) →
    (Host.Core.run Sys2Proof.core cap.toNat s : Outcome) = .next { failedWith 6 s with
      inbox := afterIdles (cap.toNat - 1) rest, answer := some .ok, rngPos := s.rngPos + 64 * cap.toNat }

/-- R288: as long as the candidates are singular, `SBFIND 0` goes on without `RST`, and the write is not answered. Idle moves pass
meanwhile. -/
def Obligations.SbfindWithoutCapGoesOn : Prop :=
  ∀ (s : State) (n : Nat) (rest : List HostMove),
    s.search = none → s.inbox = .write 0x001#12 (encode (.sbfind 0)) :: rest →
    (∀ k, k < n → (afterIdles k rest).head? ≠ some .rst) →
    (∀ k, k ≤ n → isInvertible (matrixAt s (s.rngPos + 64 * k)) = false) →
    (Host.Core.run Sys2Proof.core (n + 1) s : Outcome) = .next { s with
      inbox := afterIdles n rest, answer := none, rngPos := s.rngPos + 64 * (n + 1), search := some ⟨0, n + 1⟩ }

/-- R130: after a successful `SBBLD` or `SBFIND` the validator finds the S-box bijective and exactly balanced. -/
def Obligations.ConstructedSboxesPassTheValidator : Prop :=
  (∀ s t : State, isInvertible s.affm = true → exec .sbbld s = .next t →
    ∃ u : State, exec .sbchk t = .next u ∧ u.err = 0 ∧ u.isBij = true ∧ u.isBal = true ∧
      ∀ i : Fin 8, u.bitcnt[i] = 128) ∧
  (∀ s t : State, ((∃ cap, exec (.sbfind cap) s = .next t) ∨ ∃ f, searchStep f s = .next t) → t.search = none → t.err = 0 →
    ∃ u : State, exec .sbchk t = .next u ∧ u.err = 0 ∧ u.isBij = true ∧ u.isBal = true ∧
      ∀ i : Fin 8, u.bitcnt[i] = 128)

/-! ## Validator -/

/-- R140 and R141: `SBCHK` on a complete S-box; the verdicts are those of the definition, the counts are exact, and nothing
else changes. -/
def Obligations.SbchkReportsTheVerdicts : Prop :=
  encode .sbchk = 0x00000030#32 ∧
  ∀ s : State,
    (s.sbLen ≠ 256 → exec .sbchk s = .next (failedWith 2 s)) ∧
    (s.sbLen = 256 → ∃ t : State,
      exec .sbchk s = .next t ∧
      t = { s with isBij := t.isBij, isBal := t.isBal, bitcnt := t.bitcnt, chkValid := true, err := 0 } ∧
      (t.isBij = true ↔ ((Finset.range 256).image fun x => atByte s.sbox (nthByte x)).card = 256) ∧
      (∀ i : Fin 8, t.bitcnt[i].toNat =
        ((Finset.range 256).filter fun x => (atByte s.sbox (nthByte x)).getLsbD i.val = true).card) ∧
      (t.isBal = true ↔ ∀ i : Fin 8, t.bitcnt[i] = 128))

/-! ## AES-128 engine -/

/-- R151: the inverse S-box undoes a bijective S-box on both sides, and the entry of any value is the greatest index that has
it. -/
def Obligations.InverseSboxInvertsTheSbox : Prop :=
  ∀ t : Table,
    (isBijective t = true → ∀ x : Byte, atByte (invSbox t) (atByte t x) = x ∧ atByte t (atByte (invSbox t) x) = x) ∧
    ∀ i : Byte, (∀ j : Byte, atByte t j = atByte t i → j ≤ i) → atByte (invSbox t) (atByte t i) = i

/-- R153: the seed words and the recurrence of the key schedule, byte by byte. -/
def Obligations.KeyScheduleFollowsTheRecurrence : Prop :=
  ∀ (k : Block) (t : Table),
    (∀ i j : Fin 4, (expandKey k t)[i.val][j] = k[4 * i.val + j.val]) ∧
    ∀ (i : Nat) (h4 : 4 ≤ i) (h : i < 44) (j : Fin 4),
      (expandKey k t)[i][j] = (expandKey k t)[i - 4][j] ^^^
        if i % 4 = 0 then
          atByte t (expandKey k t)[i - 1][j + 1] ^^^
            (if j = 0 then ([0x01, 0x02, 0x04, 0x08, 0x10, 0x20, 0x40, 0x80, 0x1B, 0x36] : List Byte).getD (i / 4 - 1) 0
              else 0)
        else (expandKey k t)[i - 1][j]

/-- R152: `KEXP` with 16 key bytes and a complete S-box builds the engine and changes nothing else; the two failures, the key
length first. -/
def Obligations.KexpBuildsTheEngine : Prop :=
  encode .kexp = 0x00000040#32 ∧
  ∀ s : State,
    (s.keyLen ≠ 16 → exec .kexp s = .next (failedWith 3 s)) ∧
    (s.keyLen = 16 → s.sbLen ≠ 256 → exec .kexp s = .next (failedWith 2 s)) ∧
    (s.keyLen = 16 → s.sbLen = 256 →
      exec .kexp s = .next { s with
        esbox := s.sbox, engBij := isBijective s.sbox, einv := invSbox s.sbox, rk := expandKey s.key s.sbox
        engValid := true, err := 0 })

/-- R166 and R167: words, results, frames and failures of `ENC` and `DEC`. -/
def Obligations.BlockCommandsWriteOut : Prop :=
  encode .enc = 0x00000041#32 ∧ encode .dec = 0x00000042#32 ∧
  ∀ s : State,
    (s.engValid = false → exec .enc s = .next (failedWith 7 s) ∧ exec .dec s = .next (failedWith 7 s)) ∧
    (s.engValid = true → s.blkLen ≠ 16 →
      exec .enc s = .next (failedWith 4 s) ∧ exec .dec s = .next (failedWith 4 s)) ∧
    (s.engValid = true → s.blkLen = 16 →
      exec .enc s = .next { s with out := encryptBlock s.esbox s.rk s.blk, outValid := true, err := 0 } ∧
      (s.engBij = true →
        exec .dec s = .next { s with out := decryptBlock s.einv s.rk s.blk, outValid := true, err := 0 }) ∧
      (s.engBij = false → exec .dec s = .next (failedWith 2 s)))

/-- R164 with R155 to R160, entry by entry: the states between the rounds of an encryption, with the substituted and shifted
entry of row `k` written `t[S[k][(c + k) % 4]]` and row `r` of `MDS` holding 2, 3, 1, 1 from column `r` on. -/
def Obligations.EncryptionFollowsTheRounds : Prop :=
  ∀ (t : Table) (rk : Schedule) (b : Block), ∃ S : Fin 11 → CipherState,
    (∀ r c : Fin 4, (S 0)[r][c] = b[r.val + 4 * c.val] ^^^ rk[c.val][r]) ∧
    (∀ (n : Fin 9) (r c : Fin 4),
      let y := fun k : Fin 4 => atByte t (S ⟨n.val, by omega⟩)[k][c + k]
      (S ⟨n.val + 1, by omega⟩)[r][c] =
        multiply 2 (y r) ^^^ multiply 3 (y (r + 1)) ^^^ y (r + 2) ^^^ y (r + 3) ^^^ rk[4 * (n.val + 1) + c.val][r]) ∧
    (∀ r c : Fin 4, (S 10)[r][c] = atByte t (S 9)[r][c + r] ^^^ rk[40 + c.val][r]) ∧
    (∀ r c : Fin 4, (encryptBlock t rk b)[r.val + 4 * c.val] = (S 10)[r][c])

/-- R165 with R161 to R163, entry by entry: the states between the rounds of a decryption, from round key 10 down, row `r` of
`IMDS` holding 0E, 0B, 0D, 09 from column `r` on. -/
def Obligations.DecryptionFollowsTheRounds : Prop :=
  ∀ (t : Table) (rk : Schedule) (b : Block), ∃ S : Fin 11 → CipherState,
    (∀ r c : Fin 4, (S 0)[r][c] = b[r.val + 4 * c.val] ^^^ rk[40 + c.val][r]) ∧
    (∀ (n : Fin 9) (r c : Fin 4),
      let y := fun k : Fin 4 => atByte t (S ⟨n.val, by omega⟩)[k][c - k] ^^^ rk[4 * (9 - n.val) + c.val][k]
      (S ⟨n.val + 1, by omega⟩)[r][c] =
        multiply 0x0E (y r) ^^^ multiply 0x0B (y (r + 1)) ^^^ multiply 0x0D (y (r + 2)) ^^^ multiply 0x09 (y (r + 3))) ∧
    (∀ r c : Fin 4, (S 10)[r][c] = atByte t (S 9)[r][c - r] ^^^ rk[c.val][r]) ∧
    (∀ r c : Fin 4, (decryptBlock t rk b)[r.val + 4 * c.val] = (S 10)[r][c])

/-- R155 to R163: each round function undoes its partner, `SubBytes` and `InvSubBytes` when the S-box is bijective (R151), and
the state load and store are each other's inverse. -/
def Obligations.RoundFunctionsUndoEachOther : Prop :=
  ∀ (m : CipherState) (b : Block) (rk : Schedule) (round : Fin 11),
    storeState (loadState b) = b ∧ loadState (storeState m) = m ∧
    addRoundKey rk round (addRoundKey rk round m) = m ∧
    invShiftRows (shiftRows m) = m ∧ shiftRows (invShiftRows m) = m ∧
    invMixColumns (mixColumns m) = m ∧ mixColumns (invMixColumns m) = m ∧
    ∀ t : Table, isBijective t = true →
      subBytes (invSbox t) (subBytes t m) = m ∧ subBytes t (subBytes (invSbox t) m) = m

/-- R168: with an engine built from a bijective S-box, `DEC` of the `OUT` of an `ENC` gives the block back, and the other way
round. -/
def Obligations.DecUndoesEnc : Prop :=
  ∀ s : State, EngineConsistent s → s.engValid = true → s.engBij = true → s.blkLen = 16 →
    (∃ t u : State, exec .enc s = .next t ∧ exec .dec { t with blk := t.out } = .next u ∧ u.out = s.blk) ∧
    (∃ t u : State, exec .dec s = .next t ∧ exec .enc { t with blk := t.out } = .next u ∧ u.out = s.blk)

/-- R38 and R173: no step but one that finds `RST` or a write of `KEXP`'s word changes the engine. -/
def Obligations.OnlyKexpChangesTheEngine : Prop :=
  ∀ s t : State, s.inbox.head? ≠ some .rst → s.inbox.head? ≠ some (.write 0x001#12 0x00000040#32) → step s = .next t →
    t.esbox = s.esbox ∧ t.einv = s.einv ∧ t.rk = s.rk ∧ t.engValid = s.engValid ∧ t.engBij = s.engBij

/-! ## FWHT -/

/-- R190: the transform's closed form, `fwht(a)[u] = sum over x of a[x] * (-1)^popcount(u AND x)`. -/
def Obligations.FwhtIsTheSignedSum : Prop :=
  ∀ a : List Int, a.length = 256 →
    (fwht a).length = 256 ∧
    ∀ u, u < 256 → (fwht a).getD u 0 =
      ∑ x ∈ Finset.range 256, a.getD x 0 * (-1) ^ popcount (nthByte u &&& nthByte x)

/-- R192: applying the transform twice multiplies by 256, and the sums of squares agree up to 256. -/
def Obligations.FwhtTwiceScalesBy256 : Prop :=
  ∀ a : List Int, a.length = 256 →
    fwht (fwht a) = a.map (256 * ·) ∧
    ((fwht a).map fun y => y * y).sum = 256 * (a.map fun y => y * y).sum

/-- R191: with every entry in -2^23..2^23-1, `FWHT` stores the exact transform, no entry wraps, and nothing else changes;
otherwise `Range`. -/
def Obligations.FwhtCommandIsExact : Prop :=
  encode .fwht = 0x00000050#32 ∧
  ∀ s : State,
    ((∀ i : Fin 256, -8388608 ≤ s.w[i].toInt ∧ s.w[i].toInt ≤ 8388607) →
      ∃ w : WorkVector, exec .fwht s = .next { s with w := w, err := 0 } ∧
        w.toList.map BitVec.toInt = fwht (s.w.toList.map BitVec.toInt)) ∧
    ((∃ i : Fin 256, s.w[i].toInt < -8388608 ∨ 8388607 < s.w[i].toInt) → exec .fwht s = .next (failedWith 8 s))

/-! ## Metrics -/

/-- R200: `ANALYZE` on a complete S-box writes every metric register, none truncated, and changes nothing else; otherwise
`InvalidLength`. -/
def Obligations.AnalyzeWritesExactMetrics : Prop :=
  encode .analyze = 0x00000060#32 ∧
  ∀ s : State,
    (s.sbLen ≠ 256 → exec .analyze s = .next (failedWith 2 s)) ∧
    (s.sbLen = 256 → ∃ t : State,
      exec .analyze s = .next t ∧
      t = { s with
        nl := t.nl, sacNum := t.sacNum, bicNl := t.bicNl, bicSacNum := t.bicSacNum, lapNum := t.lapNum
        dapNum := t.dapNum, du := t.du, ad := t.ad, ci := t.ci, toNum := t.toNum, anaValid := true, err := 0 } ∧
      t.nl.toNat = metricNl s.sbox ∧ t.sacNum.toNat = metricSac s.sbox ∧ t.bicNl.toNat = metricBicNl s.sbox ∧
      t.bicSacNum.toNat = metricBicSac s.sbox ∧ t.lapNum.toNat = metricLap s.sbox ∧ t.dapNum = t.du ∧
      t.du.toNat = metricDu s.sbox ∧ t.ad.toNat = metricAd s.sbox ∧ t.ci.toNat = metricCi s.sbox ∧
      t.toNum.toInt = metricTo s.sbox)

/-- R202: the spectrum by the transform is the signed sum; its entries are even, within -256..256, and their squares sum to
65536. -/
def Obligations.WalshSpectrumIsTheSignedSum : Prop :=
  ∀ (t : Table) (v : Byte),
    (walsh t v).length = 256 ∧
    (∀ u, u < 256 → (walsh t v).getD u 0 = walshSum t v (nthByte u) ∧ walshSum t v (nthByte u) % 2 = 0 ∧
      (walshSum t v (nthByte u)).natAbs ≤ 256) ∧
    ∑ u ∈ Finset.range 256, walshSum t v (nthByte u) ^ 2 = 65536

/-- R203, R205, R207: the three linear metrics are extremes of the signed sums. -/
def Obligations.LinearMetricsAreSpectrumExtremes : Prop :=
  ∀ t : Table,
    IsLeast { n : Nat | ∃ i, i < 8 ∧ n = 128 - ((Finset.range 256).sup fun u =>
      (walshSum t (nthByte (2 ^ i)) (nthByte u)).natAbs) / 2 } (metricNl t) ∧
    IsLeast { n : Nat | ∃ j k, j < k ∧ k < 8 ∧ n = 128 - ((Finset.range 256).sup fun u =>
      (walshSum t (nthByte (2 ^ j + 2 ^ k)) (nthByte u)).natAbs) / 2 } (metricBicNl t) ∧
    IsGreatest { n : Nat | ∃ v u, 1 ≤ v ∧ v ≤ 255 ∧ 1 ≤ u ∧ u ≤ 255 ∧
      n = (walshSum t (nthByte v) (nthByte u)).natAbs } (metricLap t)

/-- R204, R206, R208: the avalanche counts and the differential uniformity are the sums and the maximum of the rules. -/
def Obligations.DifferenceMetricsAreCounts : Prop :=
  ∀ t : Table,
    metricSac t = ∑ i ∈ Finset.range 8, ∑ x ∈ Finset.range 256,
      popcount (atByte t (nthByte x) ^^^ atByte t (nthByte x ^^^ nthByte (2 ^ i))) ∧
    metricBicSac t = ∑ k ∈ Finset.range 8, ∑ j ∈ Finset.range k, ∑ i ∈ Finset.range 8,
      ((Finset.range 256).filter fun x =>
        parity ((atByte t (nthByte x) ^^^ atByte t (nthByte x ^^^ nthByte (2 ^ i))) &&& nthByte (2 ^ j + 2 ^ k)) = true).card ∧
    IsGreatest { n : Nat | ∃ dx dy, 1 ≤ dx ∧ dx ≤ 255 ∧ dy ≤ 255 ∧ n = differenceCount t (nthByte dx) (nthByte dy) }
      (metricDu t)

/-- R209 and R210: the Möbius transform is the algebraic normal form and its own inverse, and `AD` is the largest weight of a
monomial of any output bit, 0 if there is none. -/
def Obligations.DegreeIsTheLargestMonomial : Prop :=
  (∀ l : List Bool, l.length = 256 → mobius (mobius l) = l) ∧
  ∀ t : Table,
    (∀ i u, i < 8 → u < 256 →
      (mobius (t.toList.map fun y => y.getLsbD i)).getD u false = anfCoefficient t i (nthByte u)) ∧
    metricAd t = (Finset.range 8 ×ˢ Finset.range 256).sup fun p =>
      if anfCoefficient t p.1 (nthByte p.2) then popcount (nthByte p.2) else 0

/-- R211: `CI` is the largest order up to 8 at which every output bit's spectrum is 0 at all masks of weight 1 up to it. -/
def Obligations.ImmunityIsTheLargestZeroOrder : Prop :=
  ∀ t : Table,
    IsGreatest { k : Nat | k ≤ 8 ∧ ∀ i u, i < 8 → u < 256 → 1 ≤ popcount (nthByte u) → popcount (nthByte u) ≤ k →
      walshSum t (nthByte (2 ^ i)) (nthByte u) = 0 } (metricCi t)

/-- R212: `TO_NUM` is the maximum, over the nonzero masks, of the expression in the autocorrelation sums. -/
def Obligations.TransparencyIsTheAutocorrelationMaximum : Prop :=
  ∀ t : Table,
    IsGreatest { n : Int | ∃ beta, 1 ≤ beta ∧ beta ≤ 255 ∧
      n = 65280 * |8 - 2 * (popcount (nthByte beta) : Int)| -
        ∑ a ∈ Finset.Icc 1 255, |correlationSum t (nthByte beta) (nthByte a)| } (metricTo t)

/-- The ranges of R40 and R203 to R212 for the metric values. -/
def Obligations.MetricsStayInTheirRanges : Prop :=
  ∀ t : Table,
    metricNl t ≤ 120 ∧ metricBicNl t ≤ 120 ∧
    metricSac t ≤ 16384 ∧ metricSac t % 2 = 0 ∧ metricBicSac t ≤ 57344 ∧ metricBicSac t % 2 = 0 ∧
    metricLap t ≤ 256 ∧ metricLap t % 2 = 0 ∧ 2 ≤ metricDu t ∧ metricDu t ≤ 256 ∧ metricDu t % 2 = 0 ∧
    metricAd t ≤ 8 ∧ metricCi t ≤ 8 ∧ 456960 ≤ metricTo t ∧ metricTo t ≤ 522240

/-! ## Whole-machine rules -/

/-- R42: every step that changes `SBOX` or `SBLEN` leaves both result flags cleared. -/
def Obligations.SboxChangesClearTheResultFlags : Prop :=
  ∀ s t : State, step s = .next t → t.sbox ≠ s.sbox ∨ t.sbLen ≠ s.sbLen → t.chkValid = false ∧ t.anaValid = false

/-- Who writes what (R22, R30, R32 to R37, R40, R52): a command changes a register only if it is one of that register's
writers. -/
def Obligations.CommandsWriteOnlyTheirRegisters : Prop :=
  ∀ (i : Instr) (s t : State), exec i s = .next t →
    ((t.res ≠ s.res ∨ t.resValid ≠ s.resValid) →
      (∃ a b, i = .gfmul a b) ∨ (∃ a, i = .gfinv a) ∨ (∃ a, i = .affapp a) ∨ i = .afftst) ∧
    (t.affm ≠ s.affm → i = .affrnd ∨ ∃ cap, i = .sbfind cap) ∧
    (t.sbox ≠ s.sbox → i = .sbbld ∨ ∃ cap, i = .sbfind cap) ∧
    (t.sbLen ≠ s.sbLen → i = .sbclr ∨ i = .sbbld ∨ ∃ cap, i = .sbfind cap) ∧
    (t.keyLen ≠ s.keyLen → i = .keyclr) ∧ t.key = s.key ∧
    (t.blkLen ≠ s.blkLen → i = .blkclr) ∧ t.blk = s.blk ∧
    ((t.out ≠ s.out ∨ t.outValid ≠ s.outValid) → i = .enc ∨ i = .dec) ∧
    (t.w ≠ s.w → i = .fwht) ∧
    ((t.bitcnt ≠ s.bitcnt ∨ t.isBij ≠ s.isBij ∨ t.isBal ≠ s.isBal) → i = .sbchk) ∧
    ((t.nl ≠ s.nl ∨ t.sacNum ≠ s.sacNum ∨ t.bicNl ≠ s.bicNl ∨ t.bicSacNum ≠ s.bicSacNum ∨ t.lapNum ≠ s.lapNum ∨
      t.dapNum ≠ s.dapNum ∨ t.du ≠ s.du ∨ t.ad ≠ s.ad ∨ t.ci ≠ s.ci ∨ t.toNum ≠ s.toNum) → i = .analyze) ∧
    (t.rngPos ≠ s.rngPos → i = .affrnd ∨ ∃ cap, i = .sbfind cap) ∧
    t.rngScript = s.rngScript ∧ t.inbox = s.inbox ∧ t.answer = s.answer

/-- The invariant holds at reset. -/
def Obligations.InvariantHoldsAtReset : Prop := Inv State.reset

/-- Every step from a state with the invariant keeps it: codes in range (R27, R260), the engine whole (R38), the result
registers describing the S-box now in `SBOX` (R42), the search within its cap (R128). -/
def Obligations.EveryStepKeepsTheInvariant : Prop :=
  ∀ s t : State, Inv s → step s = .next t → Inv t

/-- R55 and U3: contents behind a closed gate are unobservable. Two states that differ in such contents alone step to states
that differ in such contents alone, with the same answer. So no run can tell the reset values the model chose (log 5) from
others. -/
def Obligations.UnspecifiedContentsAreUnobservable : Prop :=
  ∀ s t s' : State, Indistinguishable s t → step s = .next s' →
    ∃ t' : State, step t = .next t' ∧ Indistinguishable s' t'
end

