-- ==== Sys2Proof/Laws/State.lean ====
section
/-! SUPPORT. One lemma per field per named update of State, so that no proof unfolds a record update. -/

namespace Sys2Proof.Machine

section
variable (s : State)

/-! ### `raise` -/

@[simp] theorem raise_err (e : ErrCode) : (raise e s).err = BitVec.ofNat 8 e.code := rfl
@[simp] theorem raise_esticky (e : ErrCode) : (raise e s).esticky = s.esticky ||| BitVec.twoPow 16 e.code := rfl
@[simp] theorem raise_res (e : ErrCode) : (raise e s).res = s.res := rfl
@[simp] theorem raise_resValid (e : ErrCode) : (raise e s).resValid = s.resValid := rfl
@[simp] theorem raise_affm (e : ErrCode) : (raise e s).affm = s.affm := rfl
@[simp] theorem raise_sbox (e : ErrCode) : (raise e s).sbox = s.sbox := rfl
@[simp] theorem raise_sbLen (e : ErrCode) : (raise e s).sbLen = s.sbLen := rfl
@[simp] theorem raise_key (e : ErrCode) : (raise e s).key = s.key := rfl
@[simp] theorem raise_keyLen (e : ErrCode) : (raise e s).keyLen = s.keyLen := rfl
@[simp] theorem raise_blk (e : ErrCode) : (raise e s).blk = s.blk := rfl
@[simp] theorem raise_blkLen (e : ErrCode) : (raise e s).blkLen = s.blkLen := rfl
@[simp] theorem raise_out (e : ErrCode) : (raise e s).out = s.out := rfl
@[simp] theorem raise_outValid (e : ErrCode) : (raise e s).outValid = s.outValid := rfl
@[simp] theorem raise_w (e : ErrCode) : (raise e s).w = s.w := rfl
@[simp] theorem raise_esbox (e : ErrCode) : (raise e s).esbox = s.esbox := rfl
@[simp] theorem raise_einv (e : ErrCode) : (raise e s).einv = s.einv := rfl
@[simp] theorem raise_rk (e : ErrCode) : (raise e s).rk = s.rk := rfl
@[simp] theorem raise_engValid (e : ErrCode) : (raise e s).engValid = s.engValid := rfl
@[simp] theorem raise_engBij (e : ErrCode) : (raise e s).engBij = s.engBij := rfl
@[simp] theorem raise_bitcnt (e : ErrCode) : (raise e s).bitcnt = s.bitcnt := rfl
@[simp] theorem raise_isBij (e : ErrCode) : (raise e s).isBij = s.isBij := rfl
@[simp] theorem raise_isBal (e : ErrCode) : (raise e s).isBal = s.isBal := rfl
@[simp] theorem raise_chkValid (e : ErrCode) : (raise e s).chkValid = s.chkValid := rfl
@[simp] theorem raise_nl (e : ErrCode) : (raise e s).nl = s.nl := rfl
@[simp] theorem raise_sacNum (e : ErrCode) : (raise e s).sacNum = s.sacNum := rfl
@[simp] theorem raise_bicNl (e : ErrCode) : (raise e s).bicNl = s.bicNl := rfl
@[simp] theorem raise_bicSacNum (e : ErrCode) : (raise e s).bicSacNum = s.bicSacNum := rfl
@[simp] theorem raise_lapNum (e : ErrCode) : (raise e s).lapNum = s.lapNum := rfl
@[simp] theorem raise_dapNum (e : ErrCode) : (raise e s).dapNum = s.dapNum := rfl
@[simp] theorem raise_du (e : ErrCode) : (raise e s).du = s.du := rfl
@[simp] theorem raise_ad (e : ErrCode) : (raise e s).ad = s.ad := rfl
@[simp] theorem raise_toNum (e : ErrCode) : (raise e s).toNum = s.toNum := rfl
@[simp] theorem raise_ci (e : ErrCode) : (raise e s).ci = s.ci := rfl
@[simp] theorem raise_anaValid (e : ErrCode) : (raise e s).anaValid = s.anaValid := rfl
@[simp] theorem raise_rngPos (e : ErrCode) : (raise e s).rngPos = s.rngPos := rfl
@[simp] theorem raise_rngScript (e : ErrCode) : (raise e s).rngScript = s.rngScript := rfl
@[simp] theorem raise_search (e : ErrCode) : (raise e s).search = s.search := rfl
@[simp] theorem raise_inbox (e : ErrCode) : (raise e s).inbox = s.inbox := rfl
@[simp] theorem raise_answer (e : ErrCode) : (raise e s).answer = s.answer := rfl

/-! ### `succeed` -/

@[simp] theorem succeed_err : (succeed s).err = 0 := rfl
@[simp] theorem succeed_esticky : (succeed s).esticky = s.esticky := rfl
@[simp] theorem succeed_res : (succeed s).res = s.res := rfl
@[simp] theorem succeed_resValid : (succeed s).resValid = s.resValid := rfl
@[simp] theorem succeed_affm : (succeed s).affm = s.affm := rfl
@[simp] theorem succeed_sbox : (succeed s).sbox = s.sbox := rfl
@[simp] theorem succeed_sbLen : (succeed s).sbLen = s.sbLen := rfl
@[simp] theorem succeed_key : (succeed s).key = s.key := rfl
@[simp] theorem succeed_keyLen : (succeed s).keyLen = s.keyLen := rfl
@[simp] theorem succeed_blk : (succeed s).blk = s.blk := rfl
@[simp] theorem succeed_blkLen : (succeed s).blkLen = s.blkLen := rfl
@[simp] theorem succeed_out : (succeed s).out = s.out := rfl
@[simp] theorem succeed_outValid : (succeed s).outValid = s.outValid := rfl
@[simp] theorem succeed_w : (succeed s).w = s.w := rfl
@[simp] theorem succeed_esbox : (succeed s).esbox = s.esbox := rfl
@[simp] theorem succeed_einv : (succeed s).einv = s.einv := rfl
@[simp] theorem succeed_rk : (succeed s).rk = s.rk := rfl
@[simp] theorem succeed_engValid : (succeed s).engValid = s.engValid := rfl
@[simp] theorem succeed_engBij : (succeed s).engBij = s.engBij := rfl
@[simp] theorem succeed_bitcnt : (succeed s).bitcnt = s.bitcnt := rfl
@[simp] theorem succeed_isBij : (succeed s).isBij = s.isBij := rfl
@[simp] theorem succeed_isBal : (succeed s).isBal = s.isBal := rfl
@[simp] theorem succeed_chkValid : (succeed s).chkValid = s.chkValid := rfl
@[simp] theorem succeed_nl : (succeed s).nl = s.nl := rfl
@[simp] theorem succeed_sacNum : (succeed s).sacNum = s.sacNum := rfl
@[simp] theorem succeed_bicNl : (succeed s).bicNl = s.bicNl := rfl
@[simp] theorem succeed_bicSacNum : (succeed s).bicSacNum = s.bicSacNum := rfl
@[simp] theorem succeed_lapNum : (succeed s).lapNum = s.lapNum := rfl
@[simp] theorem succeed_dapNum : (succeed s).dapNum = s.dapNum := rfl
@[simp] theorem succeed_du : (succeed s).du = s.du := rfl
@[simp] theorem succeed_ad : (succeed s).ad = s.ad := rfl
@[simp] theorem succeed_toNum : (succeed s).toNum = s.toNum := rfl
@[simp] theorem succeed_ci : (succeed s).ci = s.ci := rfl
@[simp] theorem succeed_anaValid : (succeed s).anaValid = s.anaValid := rfl
@[simp] theorem succeed_rngPos : (succeed s).rngPos = s.rngPos := rfl
@[simp] theorem succeed_rngScript : (succeed s).rngScript = s.rngScript := rfl
@[simp] theorem succeed_search : (succeed s).search = s.search := rfl
@[simp] theorem succeed_inbox : (succeed s).inbox = s.inbox := rfl
@[simp] theorem succeed_answer : (succeed s).answer = s.answer := rfl

/-! ### `setResult` -/

@[simp] theorem setResult_err (v : Byte) : (setResult v s).err = 0 := rfl
@[simp] theorem setResult_esticky (v : Byte) : (setResult v s).esticky = s.esticky := rfl
@[simp] theorem setResult_res (v : Byte) : (setResult v s).res = v := rfl
@[simp] theorem setResult_resValid (v : Byte) : (setResult v s).resValid = true := rfl
@[simp] theorem setResult_affm (v : Byte) : (setResult v s).affm = s.affm := rfl
@[simp] theorem setResult_sbox (v : Byte) : (setResult v s).sbox = s.sbox := rfl
@[simp] theorem setResult_sbLen (v : Byte) : (setResult v s).sbLen = s.sbLen := rfl
@[simp] theorem setResult_key (v : Byte) : (setResult v s).key = s.key := rfl
@[simp] theorem setResult_keyLen (v : Byte) : (setResult v s).keyLen = s.keyLen := rfl
@[simp] theorem setResult_blk (v : Byte) : (setResult v s).blk = s.blk := rfl
@[simp] theorem setResult_blkLen (v : Byte) : (setResult v s).blkLen = s.blkLen := rfl
@[simp] theorem setResult_out (v : Byte) : (setResult v s).out = s.out := rfl
@[simp] theorem setResult_outValid (v : Byte) : (setResult v s).outValid = s.outValid := rfl
@[simp] theorem setResult_w (v : Byte) : (setResult v s).w = s.w := rfl
@[simp] theorem setResult_esbox (v : Byte) : (setResult v s).esbox = s.esbox := rfl
@[simp] theorem setResult_einv (v : Byte) : (setResult v s).einv = s.einv := rfl
@[simp] theorem setResult_rk (v : Byte) : (setResult v s).rk = s.rk := rfl
@[simp] theorem setResult_engValid (v : Byte) : (setResult v s).engValid = s.engValid := rfl
@[simp] theorem setResult_engBij (v : Byte) : (setResult v s).engBij = s.engBij := rfl
@[simp] theorem setResult_bitcnt (v : Byte) : (setResult v s).bitcnt = s.bitcnt := rfl
@[simp] theorem setResult_isBij (v : Byte) : (setResult v s).isBij = s.isBij := rfl
@[simp] theorem setResult_isBal (v : Byte) : (setResult v s).isBal = s.isBal := rfl
@[simp] theorem setResult_chkValid (v : Byte) : (setResult v s).chkValid = s.chkValid := rfl
@[simp] theorem setResult_nl (v : Byte) : (setResult v s).nl = s.nl := rfl
@[simp] theorem setResult_sacNum (v : Byte) : (setResult v s).sacNum = s.sacNum := rfl
@[simp] theorem setResult_bicNl (v : Byte) : (setResult v s).bicNl = s.bicNl := rfl
@[simp] theorem setResult_bicSacNum (v : Byte) : (setResult v s).bicSacNum = s.bicSacNum := rfl
@[simp] theorem setResult_lapNum (v : Byte) : (setResult v s).lapNum = s.lapNum := rfl
@[simp] theorem setResult_dapNum (v : Byte) : (setResult v s).dapNum = s.dapNum := rfl
@[simp] theorem setResult_du (v : Byte) : (setResult v s).du = s.du := rfl
@[simp] theorem setResult_ad (v : Byte) : (setResult v s).ad = s.ad := rfl
@[simp] theorem setResult_toNum (v : Byte) : (setResult v s).toNum = s.toNum := rfl
@[simp] theorem setResult_ci (v : Byte) : (setResult v s).ci = s.ci := rfl
@[simp] theorem setResult_anaValid (v : Byte) : (setResult v s).anaValid = s.anaValid := rfl
@[simp] theorem setResult_rngPos (v : Byte) : (setResult v s).rngPos = s.rngPos := rfl
@[simp] theorem setResult_rngScript (v : Byte) : (setResult v s).rngScript = s.rngScript := rfl
@[simp] theorem setResult_search (v : Byte) : (setResult v s).search = s.search := rfl
@[simp] theorem setResult_inbox (v : Byte) : (setResult v s).inbox = s.inbox := rfl
@[simp] theorem setResult_answer (v : Byte) : (setResult v s).answer = s.answer := rfl

/-! ### `invalidate` -/

@[simp] theorem invalidate_err : (invalidate s).err = s.err := rfl
@[simp] theorem invalidate_esticky : (invalidate s).esticky = s.esticky := rfl
@[simp] theorem invalidate_res : (invalidate s).res = s.res := rfl
@[simp] theorem invalidate_resValid : (invalidate s).resValid = s.resValid := rfl
@[simp] theorem invalidate_affm : (invalidate s).affm = s.affm := rfl
@[simp] theorem invalidate_sbox : (invalidate s).sbox = s.sbox := rfl
@[simp] theorem invalidate_sbLen : (invalidate s).sbLen = s.sbLen := rfl
@[simp] theorem invalidate_key : (invalidate s).key = s.key := rfl
@[simp] theorem invalidate_keyLen : (invalidate s).keyLen = s.keyLen := rfl
@[simp] theorem invalidate_blk : (invalidate s).blk = s.blk := rfl
@[simp] theorem invalidate_blkLen : (invalidate s).blkLen = s.blkLen := rfl
@[simp] theorem invalidate_out : (invalidate s).out = s.out := rfl
@[simp] theorem invalidate_outValid : (invalidate s).outValid = s.outValid := rfl
@[simp] theorem invalidate_w : (invalidate s).w = s.w := rfl
@[simp] theorem invalidate_esbox : (invalidate s).esbox = s.esbox := rfl
@[simp] theorem invalidate_einv : (invalidate s).einv = s.einv := rfl
@[simp] theorem invalidate_rk : (invalidate s).rk = s.rk := rfl
@[simp] theorem invalidate_engValid : (invalidate s).engValid = s.engValid := rfl
@[simp] theorem invalidate_engBij : (invalidate s).engBij = s.engBij := rfl
@[simp] theorem invalidate_bitcnt : (invalidate s).bitcnt = s.bitcnt := rfl
@[simp] theorem invalidate_isBij : (invalidate s).isBij = s.isBij := rfl
@[simp] theorem invalidate_isBal : (invalidate s).isBal = s.isBal := rfl
@[simp] theorem invalidate_chkValid : (invalidate s).chkValid = false := rfl
@[simp] theorem invalidate_nl : (invalidate s).nl = s.nl := rfl
@[simp] theorem invalidate_sacNum : (invalidate s).sacNum = s.sacNum := rfl
@[simp] theorem invalidate_bicNl : (invalidate s).bicNl = s.bicNl := rfl
@[simp] theorem invalidate_bicSacNum : (invalidate s).bicSacNum = s.bicSacNum := rfl
@[simp] theorem invalidate_lapNum : (invalidate s).lapNum = s.lapNum := rfl
@[simp] theorem invalidate_dapNum : (invalidate s).dapNum = s.dapNum := rfl
@[simp] theorem invalidate_du : (invalidate s).du = s.du := rfl
@[simp] theorem invalidate_ad : (invalidate s).ad = s.ad := rfl
@[simp] theorem invalidate_toNum : (invalidate s).toNum = s.toNum := rfl
@[simp] theorem invalidate_ci : (invalidate s).ci = s.ci := rfl
@[simp] theorem invalidate_anaValid : (invalidate s).anaValid = false := rfl
@[simp] theorem invalidate_rngPos : (invalidate s).rngPos = s.rngPos := rfl
@[simp] theorem invalidate_rngScript : (invalidate s).rngScript = s.rngScript := rfl
@[simp] theorem invalidate_search : (invalidate s).search = s.search := rfl
@[simp] theorem invalidate_inbox : (invalidate s).inbox = s.inbox := rfl
@[simp] theorem invalidate_answer : (invalidate s).answer = s.answer := rfl

/-! ### `clearSticky` -/

@[simp] theorem clearSticky_err (d : Word) : (clearSticky d s).err = s.err := rfl
@[simp] theorem clearSticky_esticky (d : Word) : (clearSticky d s).esticky = s.esticky &&& ~~~(d.setWidth 16) := rfl
@[simp] theorem clearSticky_res (d : Word) : (clearSticky d s).res = s.res := rfl
@[simp] theorem clearSticky_resValid (d : Word) : (clearSticky d s).resValid = s.resValid := rfl
@[simp] theorem clearSticky_affm (d : Word) : (clearSticky d s).affm = s.affm := rfl
@[simp] theorem clearSticky_sbox (d : Word) : (clearSticky d s).sbox = s.sbox := rfl
@[simp] theorem clearSticky_sbLen (d : Word) : (clearSticky d s).sbLen = s.sbLen := rfl
@[simp] theorem clearSticky_key (d : Word) : (clearSticky d s).key = s.key := rfl
@[simp] theorem clearSticky_keyLen (d : Word) : (clearSticky d s).keyLen = s.keyLen := rfl
@[simp] theorem clearSticky_blk (d : Word) : (clearSticky d s).blk = s.blk := rfl
@[simp] theorem clearSticky_blkLen (d : Word) : (clearSticky d s).blkLen = s.blkLen := rfl
@[simp] theorem clearSticky_out (d : Word) : (clearSticky d s).out = s.out := rfl
@[simp] theorem clearSticky_outValid (d : Word) : (clearSticky d s).outValid = s.outValid := rfl
@[simp] theorem clearSticky_w (d : Word) : (clearSticky d s).w = s.w := rfl
@[simp] theorem clearSticky_esbox (d : Word) : (clearSticky d s).esbox = s.esbox := rfl
@[simp] theorem clearSticky_einv (d : Word) : (clearSticky d s).einv = s.einv := rfl
@[simp] theorem clearSticky_rk (d : Word) : (clearSticky d s).rk = s.rk := rfl
@[simp] theorem clearSticky_engValid (d : Word) : (clearSticky d s).engValid = s.engValid := rfl
@[simp] theorem clearSticky_engBij (d : Word) : (clearSticky d s).engBij = s.engBij := rfl
@[simp] theorem clearSticky_bitcnt (d : Word) : (clearSticky d s).bitcnt = s.bitcnt := rfl
@[simp] theorem clearSticky_isBij (d : Word) : (clearSticky d s).isBij = s.isBij := rfl
@[simp] theorem clearSticky_isBal (d : Word) : (clearSticky d s).isBal = s.isBal := rfl
@[simp] theorem clearSticky_chkValid (d : Word) : (clearSticky d s).chkValid = s.chkValid := rfl
@[simp] theorem clearSticky_nl (d : Word) : (clearSticky d s).nl = s.nl := rfl
@[simp] theorem clearSticky_sacNum (d : Word) : (clearSticky d s).sacNum = s.sacNum := rfl
@[simp] theorem clearSticky_bicNl (d : Word) : (clearSticky d s).bicNl = s.bicNl := rfl
@[simp] theorem clearSticky_bicSacNum (d : Word) : (clearSticky d s).bicSacNum = s.bicSacNum := rfl
@[simp] theorem clearSticky_lapNum (d : Word) : (clearSticky d s).lapNum = s.lapNum := rfl
@[simp] theorem clearSticky_dapNum (d : Word) : (clearSticky d s).dapNum = s.dapNum := rfl
@[simp] theorem clearSticky_du (d : Word) : (clearSticky d s).du = s.du := rfl
@[simp] theorem clearSticky_ad (d : Word) : (clearSticky d s).ad = s.ad := rfl
@[simp] theorem clearSticky_toNum (d : Word) : (clearSticky d s).toNum = s.toNum := rfl
@[simp] theorem clearSticky_ci (d : Word) : (clearSticky d s).ci = s.ci := rfl
@[simp] theorem clearSticky_anaValid (d : Word) : (clearSticky d s).anaValid = s.anaValid := rfl
@[simp] theorem clearSticky_rngPos (d : Word) : (clearSticky d s).rngPos = s.rngPos := rfl
@[simp] theorem clearSticky_rngScript (d : Word) : (clearSticky d s).rngScript = s.rngScript := rfl
@[simp] theorem clearSticky_search (d : Word) : (clearSticky d s).search = s.search := rfl
@[simp] theorem clearSticky_inbox (d : Word) : (clearSticky d s).inbox = s.inbox := rfl
@[simp] theorem clearSticky_answer (d : Word) : (clearSticky d s).answer = s.answer := rfl

/-! ### `replaceSbox` -/

@[simp] theorem replaceSbox_err (t : Table) : (replaceSbox t s).err = s.err := rfl
@[simp] theorem replaceSbox_esticky (t : Table) : (replaceSbox t s).esticky = s.esticky := rfl
@[simp] theorem replaceSbox_res (t : Table) : (replaceSbox t s).res = s.res := rfl
@[simp] theorem replaceSbox_resValid (t : Table) : (replaceSbox t s).resValid = s.resValid := rfl
@[simp] theorem replaceSbox_affm (t : Table) : (replaceSbox t s).affm = s.affm := rfl
@[simp] theorem replaceSbox_sbox (t : Table) : (replaceSbox t s).sbox = t := rfl
@[simp] theorem replaceSbox_sbLen (t : Table) : (replaceSbox t s).sbLen = 256 := rfl
@[simp] theorem replaceSbox_key (t : Table) : (replaceSbox t s).key = s.key := rfl
@[simp] theorem replaceSbox_keyLen (t : Table) : (replaceSbox t s).keyLen = s.keyLen := rfl
@[simp] theorem replaceSbox_blk (t : Table) : (replaceSbox t s).blk = s.blk := rfl
@[simp] theorem replaceSbox_blkLen (t : Table) : (replaceSbox t s).blkLen = s.blkLen := rfl
@[simp] theorem replaceSbox_out (t : Table) : (replaceSbox t s).out = s.out := rfl
@[simp] theorem replaceSbox_outValid (t : Table) : (replaceSbox t s).outValid = s.outValid := rfl
@[simp] theorem replaceSbox_w (t : Table) : (replaceSbox t s).w = s.w := rfl
@[simp] theorem replaceSbox_esbox (t : Table) : (replaceSbox t s).esbox = s.esbox := rfl
@[simp] theorem replaceSbox_einv (t : Table) : (replaceSbox t s).einv = s.einv := rfl
@[simp] theorem replaceSbox_rk (t : Table) : (replaceSbox t s).rk = s.rk := rfl
@[simp] theorem replaceSbox_engValid (t : Table) : (replaceSbox t s).engValid = s.engValid := rfl
@[simp] theorem replaceSbox_engBij (t : Table) : (replaceSbox t s).engBij = s.engBij := rfl
@[simp] theorem replaceSbox_bitcnt (t : Table) : (replaceSbox t s).bitcnt = s.bitcnt := rfl
@[simp] theorem replaceSbox_isBij (t : Table) : (replaceSbox t s).isBij = s.isBij := rfl
@[simp] theorem replaceSbox_isBal (t : Table) : (replaceSbox t s).isBal = s.isBal := rfl
@[simp] theorem replaceSbox_chkValid (t : Table) : (replaceSbox t s).chkValid = false := rfl
@[simp] theorem replaceSbox_nl (t : Table) : (replaceSbox t s).nl = s.nl := rfl
@[simp] theorem replaceSbox_sacNum (t : Table) : (replaceSbox t s).sacNum = s.sacNum := rfl
@[simp] theorem replaceSbox_bicNl (t : Table) : (replaceSbox t s).bicNl = s.bicNl := rfl
@[simp] theorem replaceSbox_bicSacNum (t : Table) : (replaceSbox t s).bicSacNum = s.bicSacNum := rfl
@[simp] theorem replaceSbox_lapNum (t : Table) : (replaceSbox t s).lapNum = s.lapNum := rfl
@[simp] theorem replaceSbox_dapNum (t : Table) : (replaceSbox t s).dapNum = s.dapNum := rfl
@[simp] theorem replaceSbox_du (t : Table) : (replaceSbox t s).du = s.du := rfl
@[simp] theorem replaceSbox_ad (t : Table) : (replaceSbox t s).ad = s.ad := rfl
@[simp] theorem replaceSbox_toNum (t : Table) : (replaceSbox t s).toNum = s.toNum := rfl
@[simp] theorem replaceSbox_ci (t : Table) : (replaceSbox t s).ci = s.ci := rfl
@[simp] theorem replaceSbox_anaValid (t : Table) : (replaceSbox t s).anaValid = false := rfl
@[simp] theorem replaceSbox_rngPos (t : Table) : (replaceSbox t s).rngPos = s.rngPos := rfl
@[simp] theorem replaceSbox_rngScript (t : Table) : (replaceSbox t s).rngScript = s.rngScript := rfl
@[simp] theorem replaceSbox_search (t : Table) : (replaceSbox t s).search = s.search := rfl
@[simp] theorem replaceSbox_inbox (t : Table) : (replaceSbox t s).inbox = s.inbox := rfl
@[simp] theorem replaceSbox_answer (t : Table) : (replaceSbox t s).answer = s.answer := rfl

/-! ### `advanceRng` -/

@[simp] theorem advanceRng_err (n : Nat) : (advanceRng n s).err = s.err := rfl
@[simp] theorem advanceRng_esticky (n : Nat) : (advanceRng n s).esticky = s.esticky := rfl
@[simp] theorem advanceRng_res (n : Nat) : (advanceRng n s).res = s.res := rfl
@[simp] theorem advanceRng_resValid (n : Nat) : (advanceRng n s).resValid = s.resValid := rfl
@[simp] theorem advanceRng_affm (n : Nat) : (advanceRng n s).affm = s.affm := rfl
@[simp] theorem advanceRng_sbox (n : Nat) : (advanceRng n s).sbox = s.sbox := rfl
@[simp] theorem advanceRng_sbLen (n : Nat) : (advanceRng n s).sbLen = s.sbLen := rfl
@[simp] theorem advanceRng_key (n : Nat) : (advanceRng n s).key = s.key := rfl
@[simp] theorem advanceRng_keyLen (n : Nat) : (advanceRng n s).keyLen = s.keyLen := rfl
@[simp] theorem advanceRng_blk (n : Nat) : (advanceRng n s).blk = s.blk := rfl
@[simp] theorem advanceRng_blkLen (n : Nat) : (advanceRng n s).blkLen = s.blkLen := rfl
@[simp] theorem advanceRng_out (n : Nat) : (advanceRng n s).out = s.out := rfl
@[simp] theorem advanceRng_outValid (n : Nat) : (advanceRng n s).outValid = s.outValid := rfl
@[simp] theorem advanceRng_w (n : Nat) : (advanceRng n s).w = s.w := rfl
@[simp] theorem advanceRng_esbox (n : Nat) : (advanceRng n s).esbox = s.esbox := rfl
@[simp] theorem advanceRng_einv (n : Nat) : (advanceRng n s).einv = s.einv := rfl
@[simp] theorem advanceRng_rk (n : Nat) : (advanceRng n s).rk = s.rk := rfl
@[simp] theorem advanceRng_engValid (n : Nat) : (advanceRng n s).engValid = s.engValid := rfl
@[simp] theorem advanceRng_engBij (n : Nat) : (advanceRng n s).engBij = s.engBij := rfl
@[simp] theorem advanceRng_bitcnt (n : Nat) : (advanceRng n s).bitcnt = s.bitcnt := rfl
@[simp] theorem advanceRng_isBij (n : Nat) : (advanceRng n s).isBij = s.isBij := rfl
@[simp] theorem advanceRng_isBal (n : Nat) : (advanceRng n s).isBal = s.isBal := rfl
@[simp] theorem advanceRng_chkValid (n : Nat) : (advanceRng n s).chkValid = s.chkValid := rfl
@[simp] theorem advanceRng_nl (n : Nat) : (advanceRng n s).nl = s.nl := rfl
@[simp] theorem advanceRng_sacNum (n : Nat) : (advanceRng n s).sacNum = s.sacNum := rfl
@[simp] theorem advanceRng_bicNl (n : Nat) : (advanceRng n s).bicNl = s.bicNl := rfl
@[simp] theorem advanceRng_bicSacNum (n : Nat) : (advanceRng n s).bicSacNum = s.bicSacNum := rfl
@[simp] theorem advanceRng_lapNum (n : Nat) : (advanceRng n s).lapNum = s.lapNum := rfl
@[simp] theorem advanceRng_dapNum (n : Nat) : (advanceRng n s).dapNum = s.dapNum := rfl
@[simp] theorem advanceRng_du (n : Nat) : (advanceRng n s).du = s.du := rfl
@[simp] theorem advanceRng_ad (n : Nat) : (advanceRng n s).ad = s.ad := rfl
@[simp] theorem advanceRng_toNum (n : Nat) : (advanceRng n s).toNum = s.toNum := rfl
@[simp] theorem advanceRng_ci (n : Nat) : (advanceRng n s).ci = s.ci := rfl
@[simp] theorem advanceRng_anaValid (n : Nat) : (advanceRng n s).anaValid = s.anaValid := rfl
@[simp] theorem advanceRng_rngPos (n : Nat) : (advanceRng n s).rngPos = s.rngPos + n := rfl
@[simp] theorem advanceRng_rngScript (n : Nat) : (advanceRng n s).rngScript = s.rngScript := rfl
@[simp] theorem advanceRng_search (n : Nat) : (advanceRng n s).search = s.search := rfl
@[simp] theorem advanceRng_inbox (n : Nat) : (advanceRng n s).inbox = s.inbox := rfl
@[simp] theorem advanceRng_answer (n : Nat) : (advanceRng n s).answer = s.answer := rfl

/-! ### `answerWith` -/

@[simp] theorem answerWith_err (a : Answer) : (answerWith a s).err = s.err := rfl
@[simp] theorem answerWith_esticky (a : Answer) : (answerWith a s).esticky = s.esticky := rfl
@[simp] theorem answerWith_res (a : Answer) : (answerWith a s).res = s.res := rfl
@[simp] theorem answerWith_resValid (a : Answer) : (answerWith a s).resValid = s.resValid := rfl
@[simp] theorem answerWith_affm (a : Answer) : (answerWith a s).affm = s.affm := rfl
@[simp] theorem answerWith_sbox (a : Answer) : (answerWith a s).sbox = s.sbox := rfl
@[simp] theorem answerWith_sbLen (a : Answer) : (answerWith a s).sbLen = s.sbLen := rfl
@[simp] theorem answerWith_key (a : Answer) : (answerWith a s).key = s.key := rfl
@[simp] theorem answerWith_keyLen (a : Answer) : (answerWith a s).keyLen = s.keyLen := rfl
@[simp] theorem answerWith_blk (a : Answer) : (answerWith a s).blk = s.blk := rfl
@[simp] theorem answerWith_blkLen (a : Answer) : (answerWith a s).blkLen = s.blkLen := rfl
@[simp] theorem answerWith_out (a : Answer) : (answerWith a s).out = s.out := rfl
@[simp] theorem answerWith_outValid (a : Answer) : (answerWith a s).outValid = s.outValid := rfl
@[simp] theorem answerWith_w (a : Answer) : (answerWith a s).w = s.w := rfl
@[simp] theorem answerWith_esbox (a : Answer) : (answerWith a s).esbox = s.esbox := rfl
@[simp] theorem answerWith_einv (a : Answer) : (answerWith a s).einv = s.einv := rfl
@[simp] theorem answerWith_rk (a : Answer) : (answerWith a s).rk = s.rk := rfl
@[simp] theorem answerWith_engValid (a : Answer) : (answerWith a s).engValid = s.engValid := rfl
@[simp] theorem answerWith_engBij (a : Answer) : (answerWith a s).engBij = s.engBij := rfl
@[simp] theorem answerWith_bitcnt (a : Answer) : (answerWith a s).bitcnt = s.bitcnt := rfl
@[simp] theorem answerWith_isBij (a : Answer) : (answerWith a s).isBij = s.isBij := rfl
@[simp] theorem answerWith_isBal (a : Answer) : (answerWith a s).isBal = s.isBal := rfl
@[simp] theorem answerWith_chkValid (a : Answer) : (answerWith a s).chkValid = s.chkValid := rfl
@[simp] theorem answerWith_nl (a : Answer) : (answerWith a s).nl = s.nl := rfl
@[simp] theorem answerWith_sacNum (a : Answer) : (answerWith a s).sacNum = s.sacNum := rfl
@[simp] theorem answerWith_bicNl (a : Answer) : (answerWith a s).bicNl = s.bicNl := rfl
@[simp] theorem answerWith_bicSacNum (a : Answer) : (answerWith a s).bicSacNum = s.bicSacNum := rfl
@[simp] theorem answerWith_lapNum (a : Answer) : (answerWith a s).lapNum = s.lapNum := rfl
@[simp] theorem answerWith_dapNum (a : Answer) : (answerWith a s).dapNum = s.dapNum := rfl
@[simp] theorem answerWith_du (a : Answer) : (answerWith a s).du = s.du := rfl
@[simp] theorem answerWith_ad (a : Answer) : (answerWith a s).ad = s.ad := rfl
@[simp] theorem answerWith_toNum (a : Answer) : (answerWith a s).toNum = s.toNum := rfl
@[simp] theorem answerWith_ci (a : Answer) : (answerWith a s).ci = s.ci := rfl
@[simp] theorem answerWith_anaValid (a : Answer) : (answerWith a s).anaValid = s.anaValid := rfl
@[simp] theorem answerWith_rngPos (a : Answer) : (answerWith a s).rngPos = s.rngPos := rfl
@[simp] theorem answerWith_rngScript (a : Answer) : (answerWith a s).rngScript = s.rngScript := rfl
@[simp] theorem answerWith_search (a : Answer) : (answerWith a s).search = s.search := rfl
@[simp] theorem answerWith_inbox (a : Answer) : (answerWith a s).inbox = s.inbox := rfl
@[simp] theorem answerWith_answer (a : Answer) : (answerWith a s).answer = some a := rfl

/-! ### `noAnswer` -/

@[simp] theorem noAnswer_err : (noAnswer s).err = s.err := rfl
@[simp] theorem noAnswer_esticky : (noAnswer s).esticky = s.esticky := rfl
@[simp] theorem noAnswer_res : (noAnswer s).res = s.res := rfl
@[simp] theorem noAnswer_resValid : (noAnswer s).resValid = s.resValid := rfl
@[simp] theorem noAnswer_affm : (noAnswer s).affm = s.affm := rfl
@[simp] theorem noAnswer_sbox : (noAnswer s).sbox = s.sbox := rfl
@[simp] theorem noAnswer_sbLen : (noAnswer s).sbLen = s.sbLen := rfl
@[simp] theorem noAnswer_key : (noAnswer s).key = s.key := rfl
@[simp] theorem noAnswer_keyLen : (noAnswer s).keyLen = s.keyLen := rfl
@[simp] theorem noAnswer_blk : (noAnswer s).blk = s.blk := rfl
@[simp] theorem noAnswer_blkLen : (noAnswer s).blkLen = s.blkLen := rfl
@[simp] theorem noAnswer_out : (noAnswer s).out = s.out := rfl
@[simp] theorem noAnswer_outValid : (noAnswer s).outValid = s.outValid := rfl
@[simp] theorem noAnswer_w : (noAnswer s).w = s.w := rfl
@[simp] theorem noAnswer_esbox : (noAnswer s).esbox = s.esbox := rfl
@[simp] theorem noAnswer_einv : (noAnswer s).einv = s.einv := rfl
@[simp] theorem noAnswer_rk : (noAnswer s).rk = s.rk := rfl
@[simp] theorem noAnswer_engValid : (noAnswer s).engValid = s.engValid := rfl
@[simp] theorem noAnswer_engBij : (noAnswer s).engBij = s.engBij := rfl
@[simp] theorem noAnswer_bitcnt : (noAnswer s).bitcnt = s.bitcnt := rfl
@[simp] theorem noAnswer_isBij : (noAnswer s).isBij = s.isBij := rfl
@[simp] theorem noAnswer_isBal : (noAnswer s).isBal = s.isBal := rfl
@[simp] theorem noAnswer_chkValid : (noAnswer s).chkValid = s.chkValid := rfl
@[simp] theorem noAnswer_nl : (noAnswer s).nl = s.nl := rfl
@[simp] theorem noAnswer_sacNum : (noAnswer s).sacNum = s.sacNum := rfl
@[simp] theorem noAnswer_bicNl : (noAnswer s).bicNl = s.bicNl := rfl
@[simp] theorem noAnswer_bicSacNum : (noAnswer s).bicSacNum = s.bicSacNum := rfl
@[simp] theorem noAnswer_lapNum : (noAnswer s).lapNum = s.lapNum := rfl
@[simp] theorem noAnswer_dapNum : (noAnswer s).dapNum = s.dapNum := rfl
@[simp] theorem noAnswer_du : (noAnswer s).du = s.du := rfl
@[simp] theorem noAnswer_ad : (noAnswer s).ad = s.ad := rfl
@[simp] theorem noAnswer_toNum : (noAnswer s).toNum = s.toNum := rfl
@[simp] theorem noAnswer_ci : (noAnswer s).ci = s.ci := rfl
@[simp] theorem noAnswer_anaValid : (noAnswer s).anaValid = s.anaValid := rfl
@[simp] theorem noAnswer_rngPos : (noAnswer s).rngPos = s.rngPos := rfl
@[simp] theorem noAnswer_rngScript : (noAnswer s).rngScript = s.rngScript := rfl
@[simp] theorem noAnswer_search : (noAnswer s).search = s.search := rfl
@[simp] theorem noAnswer_inbox : (noAnswer s).inbox = s.inbox := rfl
@[simp] theorem noAnswer_answer : (noAnswer s).answer = none := rfl

end

end Sys2Proof.Machine
end

