-- ==== Sys2Proof/Laws/Ops.lean ====
section
/-! SUPPORT. One specification lemma per shared operation: arrays and indexing, bytes of bits, ending a command, the push
buffers, the entropy source, and one trial of a search. -/

namespace Sys2Proof.Machine

/-! ### Arrays -/

@[simp] theorem getElem_tabulate {α : Type} {n : Nat} (f : Fin n → α) (i : Nat) (h : i < n) :
    (tabulate f)[i] = f ⟨i, h⟩ := by
  simp [tabulate]

@[simp] theorem getElem_fin_tabulate {α : Type} {n : Nat} (f : Fin n → α) (i : Fin n) : (tabulate f)[i] = f i :=
  getElem_tabulate f i.val i.isLt

@[simp] theorem toList_tabulate {α : Type} {n : Nat} (f : Fin n → α) : (tabulate f).toList = List.ofFn f := by
  simp [tabulate]

/-- Two arrays with the same element at every index are equal. -/
theorem vector_ext {α : Type} {n : Nat} {u v : Vector α n} (h : ∀ i : Fin n, u[i] = v[i]) : u = v :=
  Vector.ext fun i hi => h ⟨i, hi⟩

@[simp] theorem atByte_tabulate {α : Type} (f : Fin 256 → α) (b : Byte) : atByte (tabulate f) b = f b.toFin :=
  getElem_tabulate f b.toNat b.isLt

theorem atByte_ofNat {α : Type} (t : Vector α 256) (i : Fin 256) : atByte t (BitVec.ofNat 8 i.val) = t[i] := by
  have h : (BitVec.ofNat 8 i.val).toNat = i.val := by
    rw [BitVec.toNat_ofNat]; exact Nat.mod_eq_of_lt i.isLt
  simp only [atByte, h, Fin.getElem_fin]

theorem atByte_set {α : Type} (t : Vector α 256) (b c : Byte) (v : α) :
    atByte (t.set b.toNat v b.isLt) c = if c = b then v else atByte t c := by
  by_cases h : c = b
  · subst h; simp [atByte]
  · have hne : ¬ b.toNat = c.toNat := fun e => h (BitVec.eq_of_toNat_eq e.symm)
    simp [atByte, hne, h]

@[simp] theorem atByte_replicate {α : Type} (v : α) (b : Byte) : atByte (Vector.replicate 256 v) b = v := by
  simp [atByte]

theorem mem_allBytes (b : Byte) : b ∈ allBytes := by
  simp only [allBytes, List.mem_map, List.mem_range]
  exact ⟨b.toNat, b.isLt, by simp⟩

@[simp] theorem length_allBytes : allBytes.length = 256 := by simp [allBytes]

/-! ### Bytes of bits -/

@[simp] theorem getLsbD_byteOfBits (f : Fin 8 → Bool) (i : Fin 8) : (byteOfBits f).getLsbD i.val = f i := by
  fin_cases i <;> exact (BitVec.getLsbD_ofBoolListLE ..).trans rfl

@[simp] theorem getElem_byteOfBits (f : Fin 8 → Bool) (i : Fin 8) : (byteOfBits f)[i.val] = f i := by
  rw [← BitVec.getLsbD_eq_getElem, getLsbD_byteOfBits]

/-! ### Ending a command -/

/-- `raise` is the failure of R262 with the code of R260. -/
theorem raise_eq_failedWith (e : ErrCode) (s : State) : raise e s = Safety.failedWith e.code s := by
  cases e <;> rfl

theorem code_range (e : ErrCode) : 1 ≤ e.code ∧ e.code ≤ 8 := by cases e <;> decide

theorem code_injective {e e' : ErrCode} (h : e.code = e'.code) : e = e' := by
  cases e <;> cases e' <;> first | rfl | (exact absurd h (by decide))

/-! ### Push buffers -/

theorem pushSbox_room (d : Byte) (s : State) (h : s.sbLen.val < 256) :
    pushSbox d s = { s with
      sbox := s.sbox.set s.sbLen.val d h, sbLen := ⟨s.sbLen.val + 1, by omega⟩, chkValid := false, anaValid := false } := by
  simp [pushSbox, h, invalidate]

theorem pushSbox_full (d : Byte) (s : State) (h : 256 ≤ s.sbLen.val) :
    pushSbox d s = { s with sbLen := 257, chkValid := false, anaValid := false } := by
  simp [pushSbox, Nat.not_lt.mpr h, invalidate]

theorem pushKey_room (d : Byte) (s : State) (h : s.keyLen.val < 16) :
    pushKey d s = { s with key := s.key.set s.keyLen.val d h, keyLen := ⟨s.keyLen.val + 1, by omega⟩ } := by
  simp [pushKey, h]

theorem pushKey_full (d : Byte) (s : State) (h : 16 ≤ s.keyLen.val) : pushKey d s = { s with keyLen := 17 } := by
  simp [pushKey, Nat.not_lt.mpr h]

theorem pushBlk_room (d : Byte) (s : State) (h : s.blkLen.val < 16) :
    pushBlk d s = { s with blk := s.blk.set s.blkLen.val d h, blkLen := ⟨s.blkLen.val + 1, by omega⟩ } := by
  simp [pushBlk, h]

theorem pushBlk_full (d : Byte) (s : State) (h : 16 ≤ s.blkLen.val) : pushBlk d s = { s with blkLen := 17 } := by
  simp [pushBlk, Nat.not_lt.mpr h]

/-! ### The entropy source -/

theorem advanceRng_advanceRng (m n : Nat) (s : State) : advanceRng n (advanceRng m s) = advanceRng (m + n) s := by
  simp [advanceRng, Nat.add_assoc]

/-- The oracle's sequence depends on the state through the script alone. -/
theorem rngBit_congr {s t : State} (h : s.rngScript = t.rngScript) : rngBit s = rngBit t := by
  funext p; simp [rngBit, h]

theorem matrixAt_congr {s t : State} (h : s.rngScript = t.rngScript) : matrixAt s = matrixAt t := by
  funext p; simp [matrixAt, rngBit_congr h]

theorem getLsbD_matrixAt (s : State) (p : Nat) (row col : Fin 8) :
    (matrixAt s p)[row].getLsbD col.val = rngBit s (p + 8 * row.val + col.val) := by
  simp [matrixAt]

/-! ### Cipher states -/

@[simp] theorem getElem_cipherState (f : Fin 4 → Fin 4 → Byte) (r c : Fin 4) : (cipherState f)[r][c] = f r c := by
  simp [cipherState]

/-- An entry of a coefficient matrix: the first row's entry as many columns to the left as the row is down. -/
theorem getElem_rotatedRows (first : KeyWord) (r c : Fin 4) : (rotatedRows first)[r][c] = first[c - r] :=
  getElem_cipherState ..

/-- Two cipher states with the same entries are equal. -/
theorem cipherState_ext {m m' : CipherState} (h : ∀ r c : Fin 4, m[r][c] = m'[r][c]) : m = m' :=
  vector_ext fun r => vector_ext (h r)

/-! ### One trial of a search -/

theorem searchTrial_commit (cap : Cap) (n : Nat) (s : State) (h : isInvertible (matrixAt s s.rngPos) = true) :
    searchTrial cap n s = { s with
      affm := matrixAt s s.rngPos, sbox := buildSbox (matrixAt s s.rngPos), sbLen := 256, chkValid := false
      anaValid := false, err := 0, rngPos := s.rngPos + 64, search := none } := by
  simp [searchTrial, h, succeed, replaceSbox, invalidate, advanceRng]

theorem searchTrial_giveUp (cap : Cap) (n : Nat) (s : State) (h : isInvertible (matrixAt s s.rngPos) = false)
    (hc : cap ≠ 0) (hn : cap.toNat ≤ n + 1) :
    searchTrial cap n s = raise .noValidMatrixFound { s with rngPos := s.rngPos + 64, search := none } := by
  simp only [searchTrial, h, advanceRng]
  rw [if_neg (by simp), if_pos ⟨hc, hn⟩]

theorem searchTrial_goOn (cap : Cap) (n : Nat) (s : State) (h : isInvertible (matrixAt s s.rngPos) = false)
    (hc : cap = 0 ∨ n + 1 < cap.toNat) :
    searchTrial cap n s = { s with rngPos := s.rngPos + 64, search := some ⟨cap, n + 1⟩ } := by
  have hn : ¬(cap ≠ 0 ∧ cap.toNat ≤ n + 1) := by
    rcases hc with rfl | hc
    · simp
    · exact fun hp => absurd hp.2 (by omega)
  simp only [searchTrial, h, advanceRng]
  rw [if_neg (by simp), if_neg hn]

end Sys2Proof.Machine
end

