-- ==== Sys2Proof/Laws/PerInstr.lean ====
section
/-! SUPPORT. The family `Encodable`, one lemma per instruction: the opcode of its word has the instruction's format in the
opcode map (30_encoding.md R93), and its fields are ones the format admits (R91). -/

namespace Sys2Proof.Laws.Encodable

/-- The encoder's fields of an instruction agree with the opcode map. -/
def Statement (i : Instr) : Prop := opcodeFormat i.fields.opc = some i.format ∧ i.format.admits i.fields = true

theorem nop : Statement .nop := ⟨rfl, rfl⟩
theorem sbclr : Statement .sbclr := ⟨rfl, rfl⟩
theorem keyclr : Statement .keyclr := ⟨rfl, rfl⟩
theorem blkclr : Statement .blkclr := ⟨rfl, rfl⟩
theorem gfmul (a b : Byte) : Statement (.gfmul a b) := ⟨rfl, rfl⟩
theorem gfinv (a : Byte) : Statement (.gfinv a) := ⟨rfl, rfl⟩
theorem affrnd : Statement .affrnd := ⟨rfl, rfl⟩
theorem afftst : Statement .afftst := ⟨rfl, rfl⟩
theorem affapp (a : Byte) : Statement (.affapp a) := ⟨rfl, rfl⟩
theorem sbbld : Statement .sbbld := ⟨rfl, rfl⟩
theorem sbfind (cap : Cap) : Statement (.sbfind cap) := ⟨rfl, rfl⟩
theorem sbchk : Statement .sbchk := ⟨rfl, rfl⟩
theorem kexp : Statement .kexp := ⟨rfl, rfl⟩
theorem enc : Statement .enc := ⟨rfl, rfl⟩
theorem dec : Statement .dec := ⟨rfl, rfl⟩
theorem fwht : Statement .fwht := ⟨rfl, rfl⟩
theorem analyze : Statement .analyze := ⟨rfl, rfl⟩

end Sys2Proof.Laws.Encodable
end

