-- ==== Sys2Proof/Laws/Step.lean ====
section
/-! SUPPORT. What a step can do, said once: the five cases of `step`, what a transaction answers, and what a store leaves. -/

namespace Sys2Proof.Machine

/-! ### The cases of a step -/

theorem step_rst (s : State) (rest : List HostMove) (h : s.inbox = .rst :: rest) :
    step s = .next (resetEvent { s with inbox := rest }) := by
  simp [step, h]

theorem step_searching_idle (s : State) (f : Search) (rest : List HostMove) (h : s.inbox = .idle :: rest)
    (hs : s.search = some f) : step s = searchStep f { s with inbox := rest } := by
  simp [step, h, hs]

theorem step_searching (s : State) (f : Search) (hs : s.search = some f) (h1 : s.inbox.head? ≠ some .rst)
    (h2 : s.inbox.head? ≠ some .idle) : step s = searchStep f s := by
  unfold step
  split <;> simp_all

/-- A trial, whether an idle move stands in front or not. -/
theorem step_searching_moves (s : State) (f : Search) (hs : s.search = some f) (h : s.inbox.head? ≠ some .rst) :
    step s = searchStep f { s with inbox := Safety.afterIdles 1 s.inbox } := by
  by_cases h2 : s.inbox.head? = some .idle
  · obtain ⟨rest, hi⟩ := List.head?_eq_some_iff.mp h2
    simp [step_searching_idle s f rest hi hs, hi, Safety.afterIdles]
  · have e : Safety.afterIdles 1 s.inbox = s.inbox := by
      unfold Safety.afterIdles
      split <;> simp_all
    rw [step_searching s f hs h h2, e]

theorem step_nothing (s : State) (h : s.inbox = []) (hs : s.search = none) : step s = .next (noAnswer s) := by
  simp [step, h, hs]

theorem step_move (s : State) (m : HostMove) (rest : List HostMove) (h : s.inbox = m :: rest) (hs : s.search = none) :
    step s = hostMove m { s with inbox := rest } := by
  cases m <;> simp [step, h, hs, hostMove]

/-- Every step is one of these: reset, a trial, nothing, or the host's next move. -/
theorem step_cases (s : State) :
    (∃ rest, s.inbox = .rst :: rest ∧ step s = .next (resetEvent { s with inbox := rest })) ∨
    (∃ f rest, s.search = some f ∧ s.inbox = .idle :: rest ∧ step s = searchStep f { s with inbox := rest }) ∨
    (∃ f, s.search = some f ∧ s.inbox.head? ≠ some .rst ∧ s.inbox.head? ≠ some .idle ∧ step s = searchStep f s) ∨
    (s.search = none ∧ s.inbox = [] ∧ step s = .next (noAnswer s)) ∨
    (∃ m rest, s.search = none ∧ s.inbox = m :: rest ∧ m ≠ .rst ∧ step s = hostMove m { s with inbox := rest }) := by
  have hs : s.search = none ∨ ∃ f, s.search = some f := by cases s.search <;> simp
  have hi : s.inbox = [] ∨ ∃ m rest, s.inbox = m :: rest := by cases s.inbox <;> simp
  by_cases h1 : s.inbox.head? = some .rst
  · obtain hi | ⟨m, rest, hi⟩ := hi
    · simp [hi] at h1
    · obtain rfl : m = .rst := by simpa [hi] using h1
      exact .inl ⟨rest, hi, step_rst s rest hi⟩
  obtain hs | ⟨f, hs⟩ := hs
  · obtain hi | ⟨m, rest, hi⟩ := hi
    · exact .inr (.inr (.inr (.inl ⟨hs, hi, step_nothing s hi hs⟩)))
    · have hm : m ≠ .rst := fun e => h1 (by rw [hi, e]; rfl)
      exact .inr (.inr (.inr (.inr ⟨m, rest, hs, hi, hm, step_move s m rest hi hs⟩)))
  · by_cases h2 : s.inbox.head? = some .idle
    · obtain hi | ⟨m, rest, hi⟩ := hi
      · simp [hi] at h2
      · obtain rfl : m = .idle := by simpa [hi] using h2
        exact .inr (.inl ⟨f, rest, hs, hi, step_searching_idle s f rest hi hs⟩)
    · exact .inr (.inr (.inl ⟨f, hs, h1, h2, step_searching s f hs h1 h2⟩))

/-! ### Idle moves during a search -/

@[simp] theorem afterIdles_zero (moves : List HostMove) : Safety.afterIdles 0 moves = moves := by
  simp [Safety.afterIdles]

@[simp] theorem afterIdles_succ_idle (n : Nat) (rest : List HostMove) :
    Safety.afterIdles (n + 1) (.idle :: rest) = Safety.afterIdles n rest := rfl

/-- Moves that do not begin with an idle one stay. -/
theorem afterIdles_of_not_idle (n : Nat) (moves : List HostMove) (h : moves.head? ≠ some .idle) :
    Safety.afterIdles n moves = moves := by
  unfold Safety.afterIdles
  split <;> simp_all

/-- One trial more lets at most one idle move more pass. -/
theorem afterIdles_one (n : Nat) (moves : List HostMove) :
    Safety.afterIdles 1 (Safety.afterIdles n moves) = Safety.afterIdles (n + 1) moves := by
  induction n generalizing moves with
  | zero => simp
  | succ n ih =>
    by_cases h : moves.head? = some .idle
    · obtain ⟨rest, rfl⟩ := List.head?_eq_some_iff.mp h
      simp [ih]
    · simp [afterIdles_of_not_idle _ _ h]

/-! ### Answers -/

@[simp] theorem commandAnswer_next (t : State) :
    commandAnswer (.next t) = .next { t with answer := if t.search = none then some .ok else none } := rfl

theorem commandAnswer_eq_next {o : Outcome} {t : State} (h : commandAnswer o = .next t) :
    ∃ u, o = .next u ∧ t = { u with answer := if u.search = none then some .ok else none } := by
  cases o with
  | next u => exact ⟨u, rfl, by simpa using h.symm⟩
  | fault r => cases h
  | refused r => cases h

/-- A write to `CMD` runs the word. -/
theorem hostWrite_cmd (data : Word) (s : State) : hostWrite Loc.cmd.addr data s = commandAnswer (runCommand data s) := rfl

/-- A read changes the answer alone. -/
theorem hostRead_eq (addr : Addr) (s : State) :
    hostRead addr s = { s with answer := some (match readWord addr s with | some v => .okData v | none => .slverr) } := by
  unfold hostRead
  cases readWord addr s <;> rfl

/-- A store either takes its effect and answers `OK`, or is refused and changes the answer alone. -/
theorem hostStore_cases (l : Loc) (data : Word) (s : State) :
    (∃ t, storeLoc l data s = some t ∧ hostStore l data s = { t with answer := some .ok }) ∨
    (storeLoc l data s = none ∧ hostStore l data s = { s with answer := some .slverr }) := by
  unfold hostStore
  cases h : storeLoc l data s with
  | none => exact .inr ⟨rfl, rfl⟩
  | some t => exact .inl ⟨t, rfl, rfl⟩

theorem byteWrite_eq_some {data : Word} {f : Byte → State} {t : State} (h : byteWrite data f = some t) :
    data.extractLsb' 8 24 = 0 ∧ t = f (data.extractLsb' 0 8) := by
  unfold byteWrite at h
  split at h
  · exact ⟨‹_›, by simpa using h.symm⟩
  · cases h

/-! ### Reading what was stored -/

/-- A word stored to `W` reads back, and every other entry of `W` reads as before. -/
theorem readLoc_w_after_store (i j : Byte) (data : Word) (s : State) :
    ∃ t, storeLoc (.w i) data s = some t ∧
      readLoc (.w j) t = if j = i then some data else readLoc (.w j) s := by
  refine ⟨_, rfl, ?_⟩
  simp only [readLoc, atByte_set]
  split <;> rfl

/-- A byte stored to a row of `AFFM` reads back, and every other row reads as before. -/
theorem readLoc_affm_after_store (r q : Fin 8) (d : Byte) (s : State) :
    ∃ t, storeLoc (.affm r) (d.setWidth 32) s = some t ∧
      readLoc (.affm q) t = if q = r then some (d.setWidth 32) else readLoc (.affm q) s := by
  have h1 : (d.setWidth 32).extractLsb' 8 24 = 0 := by
    apply BitVec.eq_of_getLsbD_eq
    intro i hi
    simp only [BitVec.getLsbD_extractLsb', BitVec.getLsbD_setWidth]
    simp
  have h2 : (d.setWidth 32).extractLsb' 0 8 = d := by
    apply BitVec.eq_of_getLsbD_eq
    intro i hi
    simp only [BitVec.getLsbD_extractLsb', BitVec.getLsbD_setWidth, Nat.zero_add]
    simp [hi, show i < 32 by omega]
  refine ⟨{ s with affm := s.affm.set r d }, by simp [storeLoc, byteWrite, h1, h2], ?_⟩
  by_cases h : q = r
  · subst h; simp [readLoc]
  · have hne : ¬ r.val = q.val := fun e => h (Fin.ext e.symm)
    simp [readLoc, hne, h]

end Sys2Proof.Machine
end

