-- ==== Sys2Proof/Tests/Slice0.lean ====
section
/-! SUPPORT. Tests: ill-formed fields refused, every constructor's word, the spec's own vectors (95_test_vectors.md, cited by
their ids), and a witness for the hypotheses of every statement. Expected values are the spec's. -/

namespace Sys2Proof.Tests

open Sys2Proof Sys2Proof.Machine Sys2Proof.Safety

/-! ## Helpers -/

/-- The state an outcome goes on in, to look at one field of it. -/
def after (o : Outcome) : State :=
  match o with
  | .next t => t
  | .fault _ => State.reset
  | .refused _ => State.reset

/-- The reset state with the host's moves placed. -/
def placed (moves : List HostMove) : State := { State.reset with inbox := moves }

/-- 95 section 3.1, V3.3. -/
def aesMatrix : Matrix := #v[0xF1, 0xE3, 0xC7, 0x8F, 0x1F, 0x3E, 0x7C, 0xF8]

/-- 95 section 3.4, `S_ID`. -/
def identityTable : Table := tabulate fun i => BitVec.ofNat 8 i.val

/-- 95 section 5.1. -/
def fipsKey : Block :=
  #v[0x2B, 0x7E, 0x15, 0x16, 0x28, 0xAE, 0xD2, 0xA6, 0xAB, 0xF7, 0x15, 0x88, 0x09, 0xCF, 0x4F, 0x3C]

/-- 95 section 5.3. -/
def fipsBlock : Block :=
  #v[0x32, 0x43, 0xF6, 0xA8, 0x88, 0x5A, 0x30, 0x8D, 0x31, 0x31, 0x98, 0xA2, 0xE0, 0x37, 0x07, 0x34]

/-- The entropy stream of V3.12a: 64 zeros, then the bits of V3.3. -/
def streamZerosThenAes : List Bool :=
  List.replicate 64 false ++ aesMatrix.toList.flatMap fun row => (List.range 8).map row.getLsbD

/-- The reset state before a stream. -/
def streamed (bits : List Bool) (moves : List HostMove) : State :=
  { State.reset with rngScript := bits, inbox := moves }

/-- The reset state with a complete working S-box. -/
def withSbox (t : Table) : State := { State.reset with sbox := t, sbLen := 256 }

/-- An engine as `KEXP` leaves it with `S_ID` and the key of 5.1, and the block of 5.3. -/
def identityEngine : State :=
  { State.reset with
    esbox := identityTable, einv := invSbox identityTable, rk := expandKey fipsKey identityTable, engValid := true
    engBij := true, blk := fipsBlock, blkLen := 16 }

/-! ## Ill-formed fields are refused (R91, R94) -/

theorem test_reservedField_refused : (⟨0x10, 1, 2, 1⟩ : Fields).wellFormed = false := by decide
theorem test_unknownOpcode_refused : (⟨0x04, 0, 0, 0⟩ : Fields).wellFormed = false := by decide
theorem test_formatN_operandA_refused : (⟨0x00, 1, 0, 0⟩ : Fields).wellFormed = false := by decide
theorem test_formatN_operandB_refused : (⟨0x60, 0, 1, 0⟩ : Fields).wellFormed = false := by decide
theorem test_formatA_operandB_refused : (⟨0x11, 5, 1, 0⟩ : Fields).wellFormed = false := by decide
theorem test_formatC_accepted : (⟨0x24, 0x2C, 0x01, 0⟩ : Fields).wellFormed = true := by decide

/-! ## Words written out from R90 to R93: RSV, B, A, OPC -/

theorem test_decode_nop : decode 0b00000000000000000000000000000000#32 = .ok .nop := by decide
theorem test_decode_sbclr : decode 0b00000000000000000000000000000001#32 = .ok .sbclr := by decide
theorem test_decode_keyclr : decode 0b00000000000000000000000000000010#32 = .ok .keyclr := by decide
theorem test_decode_blkclr : decode 0b00000000000000000000000000000011#32 = .ok .blkclr := by decide
theorem test_decode_gfmul : decode 0b00000000100000110101011100010000#32 = .ok (.gfmul 0x57 0x83) := by decide
theorem test_decode_gfinv : decode 0b00000000000000000101001100010001#32 = .ok (.gfinv 0x53) := by decide
theorem test_decode_affrnd : decode 0b00000000000000000000000000100000#32 = .ok .affrnd := by decide
theorem test_decode_afftst : decode 0b00000000000000000000000000100001#32 = .ok .afftst := by decide
theorem test_decode_affapp : decode 0b00000000000000001100101000100010#32 = .ok (.affapp 0xCA) := by decide
theorem test_decode_sbbld : decode 0b00000000000000000000000000100011#32 = .ok .sbbld := by decide
theorem test_decode_sbfind : decode 0b00000000000000010010110000100100#32 = .ok (.sbfind 300) := by decide
theorem test_decode_sbchk : decode 0b00000000000000000000000000110000#32 = .ok .sbchk := by decide
theorem test_decode_kexp : decode 0b00000000000000000000000001000000#32 = .ok .kexp := by decide
theorem test_decode_enc : decode 0b00000000000000000000000001000001#32 = .ok .enc := by decide
theorem test_decode_dec : decode 0b00000000000000000000000001000010#32 = .ok .dec := by decide
theorem test_decode_fwht : decode 0b00000000000000000000000001010000#32 = .ok .fwht := by decide
theorem test_decode_analyze : decode 0b00000000000000000000000001100000#32 = .ok .analyze := by decide

/-- 95 section 9: `0xFFFF0024` is illegal (`RSV = 0xFF`), `0x00000004` (no such opcode), V9.15. -/
theorem test_decode_illegal :
    decode 0xFFFF0024#32 = .error .reservedField ∧ decode 0x00000004#32 = .error .unknownOpcode ∧
      decode 0x00010011#32 = .error .unusedOperandField := by decide

theorem test_table_word : decodeTableWord 32 0x00FFFF24 = some (.sbfind 65535) := by decide

/-- V2.4 as the first command after reset. -/
theorem test_first_command : (after (step (State.reset.withFetchWord 32 0x00835710))).res = 0xC1 := by decide

/-! ## The port -/

/-- V9.1, V9.7. -/
theorem test_read_constants :
    readWord 0x000 State.reset = some 0x53425801 ∧ readWord 0x00B State.reset = some 0x63 := by decide
theorem test_read_invtab : readWord 0x202 State.reset = some 0x8D := by decide +kernel
/-- V9.3, V9.4, V9.6. -/
theorem test_read_refused :
    readWord 0x001 State.reset = none ∧ readWord 0x6B0 State.reset = none ∧ readWord 0x100 State.reset = none := by decide
/-- V9.9. -/
theorem test_push_refused :
    (after (step { placed [.write 0x008 0x100] with sbLen := 3 })).sbLen = 3 ∧
      (after (step (placed [.write 0x008 0x100]))).answer = some .slverr := by decide
/-- V9.8. -/
theorem test_push_too_long :
    (after (step { placed [.write 0x008 0] with sbLen := 256, anaValid := true })).sbLen = 257 ∧
      (after (step { placed [.write 0x008 0] with sbLen := 256, anaValid := true })).anaValid = false := by decide
/-- V9.16. -/
theorem test_sticky_clear :
    (after (step { placed [.write 0x003 0x0A] with esticky := 0xAE })).esticky = 0xA4 := by decide
/-- V9.11. -/
theorem test_write_w : atByte (after (step (placed [.write 0x300 0xFFFFFFFF]))).w 0 = 0xFFFFFFFF := by decide
/-- V9.12, V9.13. -/
theorem test_illegal_command :
    (after (step (placed [.write 0x001 0xFF]))).err = 1 ∧ (after (step (placed [.write 0x001 0x100]))).esticky = 2 := by
  decide

/-- R70: the ends of the windows, and the addresses next to them. -/
theorem test_window_ends :
    Loc.ofAddr 0x010 = some (.affm 0) ∧ Loc.ofAddr 0x017 = some (.affm 7) ∧ Loc.ofAddr 0x018 = none ∧
      Loc.ofAddr 0x027 = some (.bitcnt 7) ∧ Loc.ofAddr 0x039 = some .ci ∧ Loc.ofAddr 0x03A = none ∧
      Loc.ofAddr 0x04F = some (.out 15) ∧ Loc.ofAddr 0x05F = some (.key 15) ∧ Loc.ofAddr 0x060 = none ∧
      Loc.ofAddr 0x1FF = some (.sbox 255) ∧ Loc.ofAddr 0x200 = some (.invtab 0) ∧ Loc.ofAddr 0x3FF = some (.w 255) ∧
      Loc.ofAddr 0x400 = some (.esbox 0) ∧ Loc.ofAddr 0x5FF = some (.einv 255) ∧ Loc.ofAddr 0x611 = some (.rk 4 1) ∧
      Loc.ofAddr 0x6AF = some (.rk 43 3) ∧ Loc.ofAddr 0x6B0 = none ∧ Loc.ofAddr 0xFFF = none := by decide

/-! ## Commands -/

/-- V9.17. -/
theorem test_nop : (after (exec .nop { State.reset with err := 5, esticky := 0x20 })).err = 0 ∧
    (after (exec .nop { State.reset with err := 5, esticky := 0x20 })).esticky = 0x20 := by decide
/-- V9.18. -/
theorem test_sbclr : (after (exec .sbclr { State.reset with sbLen := 256, chkValid := true })).sbLen = 0 ∧
    (after (exec .sbclr { State.reset with sbLen := 256, chkValid := true })).chkValid = false := by decide
/-- R232, example. -/
theorem test_keyclr : readWord 0x050 (after (exec .keyclr { State.reset with keyLen := 16 })) = none := by decide
/-- R233, example. -/
theorem test_blkclr :
    (after (exec .enc (after (exec .blkclr { State.reset with blkLen := 16, engValid := true })))).err = 4 := by decide
/-- V2.6, V2.8. -/
theorem test_gfmul : (after (exec (.gfmul 0x80 0x02) State.reset)).res = 0x1B ∧
    (after (exec (.gfmul 0xFF 0xFF) State.reset)).res = 0x13 := by decide
/-- V2.18, V2.14. -/
theorem test_gfinv : (after (exec (.gfinv 0x53) State.reset)).res = 0xCA ∧
    (after (exec (.gfinv 0) State.reset)).res = 0 := by decide +kernel
/-- V3.13. -/
theorem test_affrnd :
    (after (exec .affrnd { streamed streamZerosThenAes [] with rngPos := 64 })).affm.toList = aesMatrix.toList ∧
      (after (exec .affrnd { streamed streamZerosThenAes [] with rngPos := 64 })).rngPos = 128 := by decide +kernel
/-- V3.6b, V3.5d. -/
theorem test_afftst :
    (after (exec .afftst { State.reset with affm := #v[0x80, 0x40, 0x20, 0x10, 0x08, 0x04, 0x02, 0x01] })).res = 1 ∧
      (after (exec .afftst { State.reset with affm := #v[0x03, 0x06, 0x0C, 0x18, 0x30, 0x60, 0xC0, 0x81] })).res = 0 := by
  decide +kernel
/-- V3.9a, V3.7b. -/
theorem test_affapp : (after (exec (.affapp 0x01) { State.reset with affm := aesMatrix })).res = 0x7C ∧
    (after (exec (.affapp 0xFF) State.reset)).res = 0x63 := by decide +kernel
/-- Section 3.3, entry 0x53. -/
theorem test_sbbld : atByte (after (exec .sbbld { State.reset with affm := aesMatrix })).sbox 0x53 = 0xED := by
  decide +kernel
/-- V3.11b. -/
theorem test_sbbld_singular : (after (exec .sbbld State.reset)).err = 5 ∧
    (after (exec .sbbld State.reset)).esticky = 0x20 := by decide +kernel
/-- V3.12b. -/
theorem test_sbfind_cap_one : (after (exec (.sbfind 1) (streamed streamZerosThenAes []))).err = 6 ∧
    (after (exec (.sbfind 1) (streamed streamZerosThenAes []))).rngPos = 64 := by decide +kernel
/-- V3.12a: the second trial. -/
theorem test_sbfind_second_trial :
    (after (step { streamed streamZerosThenAes [] with rngPos := 64, search := some ⟨0, 1⟩ })).affm.toList =
      aesMatrix.toList := by decide +kernel
/-- V4.6: every count is 256, which needs 9 bits. -/
theorem test_sbchk : (after (exec .sbchk (withSbox (Vector.replicate 256 0xFF)))).bitcnt[7] = 256 ∧
    (after (exec .sbchk (withSbox (Vector.replicate 256 0xFF)))).isBal = false := by decide +kernel
/-- V5.0d. -/
theorem test_kexp :
    (after (exec .kexp { withSbox identityTable with key := fipsKey, keyLen := 16 })).rk[43].toList =
      [0xA1, 0x87, 0x25, 0xCB] := by decide +kernel
/-- V5.12: the key length is tested first. -/
theorem test_kexp_order : (after (exec .kexp { State.reset with keyLen := 15, sbLen := 255 })).err = 3 := by decide
/-- V5.5. -/
theorem test_enc : (after (exec .enc identityEngine)).out.toList =
    [0xBC, 0x58, 0xCD, 0xCF, 0xC8, 0x63, 0xD6, 0x3C, 0xB5, 0x13, 0xBD, 0xC7, 0x01, 0x82, 0x6E, 0x2F] := by
  decide +kernel
/-- V5.15: block length before bijectivity; V5.16. -/
theorem test_dec_order :
    (after (exec .dec { State.reset with engValid := true, blkLen := 15 })).err = 4 ∧
      (after (exec .dec { State.reset with engValid := true, blkLen := 16 })).err = 2 := by decide
/-- The rows of `MDS` as R8 lists them, and a row of `IMDS` as R163 lists it. -/
theorem test_mds_rows : mds[1] = #v[1, 2, 3, 1] ∧ mds[3] = #v[3, 1, 1, 2] ∧ imds[2] = #v[0x0D, 0x09, 0x0E, 0x0B] := by decide
/-- 5.4, InvMixColumns of one column. -/
theorem test_dec_column :
    (invMixColumns (cipherState fun r _ => #v[0x8E, 0x4D, 0xA1, 0xBC][r]))[0][0] = 0xDB := by decide +kernel
/-- V6.5. -/
theorem test_fwht :
    (after (exec .fwht { State.reset with w := tabulate fun i => BitVec.ofNat 32 i.val })).w[128].toInt = -16384 := by
  decide +kernel
/-- V6.11. -/
theorem test_fwht_range : (after (exec .fwht { State.reset with w := State.reset.w.set 7 0x00800000 })).err = 8 := by
  decide +kernel
/-- V7.4. -/
theorem test_analyze_nl : (after (exec .analyze (withSbox identityTable))).nl = 0 := by decide +kernel
theorem test_analyze_ad : (after (exec .analyze (withSbox identityTable))).ad = 1 := by decide +kernel

/-! ## Witnesses: states and operands that meet the hypotheses of the statements -/

/-- `DecodingIsTotalAndInverted`: one word for each clause, at the first value past its boundary. -/
theorem witness_decoding_clauses :
    (0x01000000#32).extractLsb' 24 8 ≠ 0 ∧
      ((0x00000004#32).extractLsb' 24 8 = 0 ∧ opcodeFormat ((0x00000004#32).extractLsb' 0 8) = none) ∧
      ((0x00000100#32).extractLsb' 24 8 = 0 ∧ opcodeFormat ((0x00000100#32).extractLsb' 0 8) = some .n ∧
        (0x00000100#32).extractLsb' 8 16 ≠ 0) ∧
      ((0x00000060#32).extractLsb' 24 8 = 0 ∧ opcodeFormat ((0x00000060#32).extractLsb' 0 8) = some .n ∧
        (0x00000060#32).extractLsb' 8 16 = 0) ∧
      (opcodeFormat ((0x00010011#32).extractLsb' 0 8) = some .a ∧ (0x00010011#32).extractLsb' 16 8 ≠ 0) ∧
      (opcodeFormat ((0x0000FF22#32).extractLsb' 0 8) = some .a ∧ (0x0000FF22#32).extractLsb' 16 8 = 0) ∧
      opcodeFormat ((0x00FFFF10#32).extractLsb' 0 8) = some .ab ∧ opcodeFormat ((0x00FFFF24#32).extractLsb' 0 8) = some .c ∧
      decode 0x00FFFF24#32 = .ok (.sbfind 0xFFFF) := by decide

/-- `AddressesNameOneLocation`. -/
theorem witness_address : Loc.ofAddr 0x6AF = some (.rk 43 3) := by decide

/-- `StepRunsTheDecodedCommand`. -/
theorem witness_step_runs :
    State.reset.search = none ∧ decode 0x00835710#32 = .ok (.gfmul 0x57 0x83) ∧ State.reset.inbox = [] ∧
      ∃ t, exec (.gfmul 0x57 0x83) { State.reset with inbox := [] } = .next t :=
  ⟨rfl, by decide, rfl, _, rfl⟩

/-- `IllegalWordsRaiseIllegalCommand`: a word of each kind, in the state it is written in. -/
theorem witness_illegal :
    (placed [.write 0x001 0x01000010]).search = none ∧
      (0x01000010#32).extractLsb' 24 8 ≠ 0 ∧ opcodeFormat ((0x000000FF#32).extractLsb' 0 8) = none ∧
      (opcodeFormat ((0x00000100#32).extractLsb' 0 8) = some .n ∧ (0x00000100#32).extractLsb' 8 8 ≠ 0) ∧
      (opcodeFormat ((0x00010000#32).extractLsb' 0 8) = some .n ∧ (0x00010000#32).extractLsb' 16 8 ≠ 0) ∧
      (opcodeFormat ((0x00010011#32).extractLsb' 0 8) = some .a ∧ (0x00010011#32).extractLsb' 16 8 ≠ 0) := by decide

/-- `ReadsChangeNothing`, and the unmapped ends of `ReadsFollowTheAddressMap`. -/
theorem witness_read :
    (placed [.read 0x00C]).search = none ∧ (placed [.read 0x00C]).inbox = .read 0x00C :: [] ∧
      readWord 0x00C State.reset = none ∧ readWord 0x00F State.reset = none ∧ readWord 0x01F State.reset = none ∧
      readWord 0x029 State.reset = none ∧ readWord 0x02F State.reset = none ∧ readWord 0x03F State.reset = none ∧
      readWord 0x0FF State.reset = none ∧ readWord 0xFFF State.reset = none ∧ readWord 0x010 State.reset = some 0 ∧
      readWord 0x017 State.reset = some 0 ∧ readWord 0x300 State.reset = some 0 ∧ readWord 0x3FF State.reset = some 0 := by
  decide

/-- `RefusedWritesChangeNothing`: both branches, at the ends of the writable ranges. -/
theorem witness_writes :
    (after (step (placed [.write 0x00A 0xFF]))).answer = some .ok ∧
      (after (step (placed [.write 0x00B 0xFF]))).answer = some .slverr ∧
      (after (step (placed [.write 0x017 0xFF]))).answer = some .ok ∧
      (after (step (placed [.write 0x017 0x100]))).answer = some .slverr ∧
      (after (step (placed [.write 0x018 0]))).answer = some .slverr ∧
      (after (step (placed [.write 0x3FF 0x100]))).answer = some .ok ∧
      (after (step (placed [.write 0x400 0]))).answer = some .slverr := by decide

/-- `SbpushAppendsAndInvalidates` and `KeyAndBlockPushesAppend`: room for the last byte, and none. -/
theorem witness_pushes :
    (placed [.write 0x008 ((0xAB : Byte).setWidth 32)]).search = none ∧
      ({ State.reset with sbLen := 255 } : State).sbLen.val < 256 ∧ 256 ≤ ({ State.reset with sbLen := 256 } : State).sbLen.val ∧
      ({ State.reset with keyLen := 15 } : State).keyLen.val < 16 ∧ 16 ≤ ({ State.reset with keyLen := 16 } : State).keyLen.val ∧
      ({ State.reset with blkLen := 15 } : State).blkLen.val < 16 ∧ 16 ≤ ({ State.reset with blkLen := 17 } : State).blkLen.val := by
  decide

/-- `PlainStoresStore`: a store of each kind. -/
theorem witness_stores :
    (0xFF#32).extractLsb' 8 24 = 0 ∧
      (placed [.write 0x017 0xFF]).inbox = .write (BitVec.ofNat 12 (0x010 + (7 : Fin 8).val)) 0xFF :: [] ∧
      (placed [.write 0x3FF 0x100]).inbox = .write (BitVec.ofNat 12 (0x300 + (255 : Fin 256).val)) 0x100 :: [] ∧
      (placed [.write 0x003 0x0A]).inbox = .write 0x003#12 0x0A :: [] := by decide

/-- `PortIsBlockedWhileSearching`: a read waits behind a running search. -/
theorem witness_blocked :
    ∃ t, ({ placed [.read 0] with search := some ⟨0, 1⟩ } : State).search = some ⟨0, 1⟩ ∧
      step { placed [.read 0] with search := some ⟨0, 1⟩ } = .next t := ⟨_, rfl, rfl⟩

/-- `ResetEventPutsTheResetState`: `RST` while a search runs. -/
theorem witness_rst :
    ({ placed [.rst, .read 0] with search := some ⟨0, 9⟩ } : State).inbox = .rst :: [.read 0] := by decide

/-- `ResetStateClosesEveryGate`: the ends of the gated ranges. -/
theorem witness_gates :
    readWord 0x004 State.reset = none ∧ readWord 0x020 State.reset = none ∧ readWord 0x028 State.reset = none ∧
      readWord 0x039 State.reset = none ∧ readWord 0x05F State.reset = none ∧ readWord 0x1FF State.reset = none ∧
      readWord 0x400 State.reset = none ∧ readWord 0x6AF State.reset = none := by decide

/-- `FailuresFollowTheCauseTable`, and the failing clauses of `SbbldBuildsTheSbox`, `SbchkReportsTheVerdicts`,
`KexpBuildsTheEngine`, `FwhtCommandIsExact` and `AnalyzeWritesExactMetrics`. -/
theorem witness_failures :
    isInvertible State.reset.affm = false ∧ State.reset.sbLen ≠ 256 ∧ State.reset.keyLen ≠ 16 ∧
      (({ State.reset with keyLen := 16 } : State).keyLen = 16 ∧ ({ State.reset with keyLen := 16 } : State).sbLen ≠ 256) ∧
      State.reset.engValid = false ∧
      (({ State.reset with engValid := true } : State).engValid = true ∧
        ({ State.reset with engValid := true } : State).blkLen ≠ 16) ∧
      (({ State.reset with engValid := true, blkLen := 16 } : State).blkLen = 16 ∧
        ({ State.reset with engValid := true, blkLen := 16 } : State).engBij = false) := by decide +kernel

/-- The `Range` clause, one past each end, and the in-range clause at both ends. -/
theorem witness_range :
    (8388607 < (State.reset.w.set 7 0x00800000)[7].toInt) ∧ ((State.reset.w.set 7 0xFF7FFFFF)[7].toInt < -8388608) ∧
      (∀ i : Fin 256, -8388608 ≤ ((State.reset.w.set 0 0xFF800000).set 255 0x007FFFFF)[i].toInt ∧
        ((State.reset.w.set 0 0xFF800000).set 255 0x007FFFFF)[i].toInt ≤ 8388607) := by decide +kernel

/-- `CommandsSucceedOrOnlyRecordAnError` and `CommandsWriteOnlyTheirRegisters`: a success, a failure, a search that gives
up on its first trial, and one on a later trial. -/
theorem witness_outcomes :
    (∃ t, exec .nop State.reset = .next t ∧ t.search = none ∧ State.reset.search = none) ∧
      (∃ t, exec .enc State.reset = .next t ∧ t.search = none) ∧
      (∃ t, exec (.sbfind 1) (streamed streamZerosThenAes []) = .next t ∧ t.search = none) ∧
      (∃ t, searchStep ⟨2, 1⟩ (streamed streamZerosThenAes []) = .next t ∧ t.search = none) :=
  ⟨⟨_, rfl, rfl, rfl⟩, ⟨_, rfl, rfl⟩, ⟨_, rfl, by decide +kernel⟩, ⟨_, rfl, by decide +kernel⟩⟩

/-- `InvertibleMeansTheAffineMapIsBijective` has matrices of both kinds, and `SbbldBuildsTheSbox` an invertible one. -/
theorem witness_invertible :
    isInvertible aesMatrix = true ∧ isInvertible (Vector.replicate 8 0xFF) = false := by decide +kernel

/-- `SbfindTriesOneCandidate`: an invertible and a singular first candidate, caps 1 and 2. -/
theorem witness_sbfind_trial :
    (streamed streamZerosThenAes []).search = none ∧
      isInvertible (matrixAt { streamed streamZerosThenAes [] with rngPos := 64 } 64) = true ∧
      isInvertible (matrixAt (streamed streamZerosThenAes []) 0) = false ∧ (2 : Cap) ≠ 1 := by decide +kernel

/-- `SbfindEndsAtTheFirstInvertibleCandidate` with `n = 1`, for caps 0 and 2. -/
theorem witness_sbfind_ends :
    (∀ k, k < 1 → (afterIdles k ([] : List HostMove)).head? ≠ some .rst) ∧
    (streamed streamZerosThenAes [.write 0x001 0x24]).inbox = .write 0x001#12 (encode (.sbfind 0)) :: [] ∧
      (∀ k, k < 1 → isInvertible (matrixAt (streamed streamZerosThenAes [.write 0x001 0x24]) (0 + 64 * k)) = false) ∧
      isInvertible (matrixAt (streamed streamZerosThenAes [.write 0x001 0x24]) (0 + 64 * 1)) = true ∧
      1 + 1 ≤ (2 : Cap).toNat := by decide +kernel

/-- `SbfindGivesUpAfterItsCap` with cap 2, and `SbfindWithoutCapGoesOn` with `n = 1`: two singular candidates, with an idle
move and a read behind the command. -/
theorem witness_sbfind_singular :
    (streamed (List.replicate 128 true) [.write 0x001 0x224, .idle, .read 0]).inbox =
        .write 0x001#12 (encode (.sbfind 2)) :: [.idle, .read 0] ∧
      (∀ k, k < 2 → (afterIdles k [.idle, .read 0]).head? ≠ some .rst) ∧ afterIdles 1 [.idle, .read 0] = [.read 0] ∧
      (2 : Cap) ≠ 0 ∧
      (∀ k, k < 2 → isInvertible
        (matrixAt (streamed (List.replicate 128 true) [.write 0x001 0x224, .idle, .read 0]) (0 + 64 * k)) = false) := by
  decide +kernel

/-- A state with `AFFM` an invertible matrix. -/
def invertibleAffm : State := { State.reset with affm := aesMatrix }

/-- A state whose next candidate is invertible. -/
def invertibleNext : State := { streamed streamZerosThenAes [] with rngPos := 64 }

/-- `ConstructedSboxesPassTheValidator`: a success of `SBBLD`. -/
theorem witness_constructed_sbbld : ∃ t, isInvertible invertibleAffm.affm = true ∧ exec .sbbld invertibleAffm = .next t := by
  have h : isInvertible invertibleAffm.affm = true := by decide +kernel
  exact ⟨_, h, by simp only [exec, execSbbld]; rw [if_pos h]⟩

/-- The candidate of `invertibleNext` ends a search in success, on the first trial and on a later one. -/
theorem witness_trial (n : Nat) : (searchTrial 1 n invertibleNext).search = none ∧ (searchTrial 1 n invertibleNext).err = 0 := by
  have h : isInvertible (matrixAt invertibleNext invertibleNext.rngPos) = true := by decide +kernel
  simp only [searchTrial]
  rw [if_pos h]
  exact ⟨rfl, rfl⟩

/-- `ConstructedSboxesPassTheValidator`: a success of `SBFIND`. -/
theorem witness_constructed_sbfind : ∃ t, exec (.sbfind 1) invertibleNext = .next t ∧ t.search = none ∧ t.err = 0 :=
  ⟨searchTrial 1 0 invertibleNext, rfl, witness_trial 0⟩

/-- `InverseIsTheUniqueInverse` and `MultiplyObeysTheFieldLaws`: a nonzero byte with a byte whose product with it is 1, and a
product that is 0. -/
theorem witness_field : (0x53 : Byte) ≠ 0 ∧ multiply 0x53 0xCA = 1 ∧ multiply 0 0x57 = 0 := by decide

/-- A complete S-box and key for `SbchkReportsTheVerdicts`, `KexpBuildsTheEngine`, `AnalyzeWritesExactMetrics` and the
successes of `FailuresFollowTheCauseTable`. -/
theorem witness_complete_sbox :
    ({ withSbox identityTable with keyLen := 16 } : State).sbLen = 256 ∧
      ({ withSbox identityTable with keyLen := 16 } : State).keyLen = 16 := by decide

theorem identityTable_bijective : isBijective identityTable = true := by decide +kernel

/-- `InverseSboxInvertsTheSbox` and `RoundFunctionsUndoEachOther`: a bijective table, and the last of two equal entries. -/
theorem witness_inverse_sbox :
    isBijective identityTable = true ∧
      ∀ j : Byte, atByte (Vector.replicate 256 (0 : Byte)) j = atByte (Vector.replicate 256 (0 : Byte)) 255 → j ≤ 255 :=
  ⟨identityTable_bijective, fun j _ => by bv_omega⟩

/-- `KeyScheduleFollowsTheRecurrence`: the first and the last derived word. -/
theorem witness_schedule : (4 ≤ 4 ∧ 4 < 44) ∧ (4 ≤ 43 ∧ 43 < 44) := by decide

/-- `DecUndoesEnc`, `BlockCommandsWriteOut` and the successes of `FailuresFollowTheCauseTable`: an engine with a bijective
S-box and a block. -/
theorem witness_engine :
    EngineConsistent identityEngine ∧ identityEngine.engValid = true ∧ identityEngine.engBij = true ∧
      identityEngine.blkLen = 16 :=
  ⟨⟨fun h => absurd h (by decide), fun _ => ⟨identityTable_bijective.symm, rfl, fipsKey, rfl⟩⟩, rfl, rfl, rfl⟩

/-- `OnlyKexpChangesTheEngine`: a step of another command with an engine present. -/
theorem witness_engine_step :
    ∃ t, ({ identityEngine with inbox := [.write 0x001 0x02] } : State).inbox.head? ≠ some .rst ∧
      ({ identityEngine with inbox := [.write 0x001 0x02] } : State).inbox.head? ≠ some (.write 0x001#12 0x40#32) ∧
      step { identityEngine with inbox := [.write 0x001 0x02] } = .next t :=
  ⟨_, by simp, by simp, rfl⟩

/-- A sequence of 256 integers, for `FwhtIsTheSignedSum` and `FwhtTwiceScalesBy256`, and of 256 bits, for
`DegreeIsTheLargestMonomial`. -/
theorem witness_sequences : (List.replicate 256 (1 : Int)).length = 256 ∧ (List.replicate 256 true).length = 256 :=
  ⟨List.length_replicate .., List.length_replicate ..⟩

/-- `SboxChangesClearTheResultFlags`: a push with both flags set. -/
theorem witness_sbox_change :
    ∃ t, step { placed [.write 0x008 1] with chkValid := true, anaValid := true } = .next t ∧
      t.sbLen ≠ ({ placed [.write 0x008 1] with chkValid := true, anaValid := true } : State).sbLen :=
  ⟨_, rfl, by decide⟩

/-- `EveryStepKeepsTheInvariant`: a state with the invariant, an engine and a next state. -/
theorem witness_invariant :
    ∃ t, Inv { identityEngine with inbox := [.write 0x001 0x41] } ∧
      step { identityEngine with inbox := [.write 0x001 0x41] } = .next t :=
  ⟨_, { codes := ⟨by decide, fun n h => by simp [identityEngine, State.reset] at h⟩
        engine := witness_engine.1
        checked := fun h => absurd h (by decide)
        analysed := fun h => absurd h (by decide)
        search := fun f h => by simp [identityEngine, State.reset] at h }, rfl⟩

/-- `UnspecifiedContentsAreUnobservable`: two different states that agree behind the open gates. -/
theorem witness_indistinguishable :
    ∃ s', Indistinguishable (placed [.read 0x004]) { placed [.read 0x004] with res := 7 } ∧
      step (placed [.read 0x004]) = .next s' :=
  ⟨_, by constructor <;> first | rfl | exact fun h => absurd h (by decide) | (intros; trivial), rfl⟩

end Sys2Proof.Tests
end

section
/-! Addresses and command words, read backwards: the location at an address has that address (R70), and a decoded word is
the encoding of its instruction (R98). -/

namespace Sys2Proof.Machine

/-- One test of a lookup written as a chain of tests: what holds of every location of both branches holds of the whole. -/
theorem Loc.forall_ite_eq_some {c : Prop} [Decidable c] {x y : Option Loc} {P : Loc → Prop}
    (hx : c → ∀ l, x = some l → P l) (hy : ¬c → ∀ l, y = some l → P l) : ∀ l, (if c then x else y) = some l → P l := by
  split
  · exact hx ‹_›
  · exact hy ‹_›

/-- An address names no location but the one that stands at it (R70). -/
theorem Loc.addr_of_ofAddr {a : Addr} : ∀ l, Loc.ofAddr a = some l → l.addr = a := by
  unfold Loc.ofAddr
  simp only
  repeat'
    refine Loc.forall_ite_eq_some (fun _ => ?_) (fun _ => ?_)
  all_goals
    intro l h
    cases h
  all_goals
    apply BitVec.eq_of_toNat_eq
    simp only [Loc.addr, BitVec.toNat_ofNat, Fin.val_ofNat, BitVec.ofNat_eq_ofNat]
    omega

end Sys2Proof.Machine

namespace Sys2Proof

/-- A word is put together from its four byte fields (R90). -/
theorem toWord_fieldsOf (w : Word) : (fieldsOf w).toWord = w := by
  simp only [fieldsOf, Fields.toWord, BitVec.extractLsb'_append_extractLsb'_eq_extractLsb']
  exact BitVec.extractLsb'_eq_self

theorem Fields.fields_of_formatN {f : Fields} {i j : Instr} {n : Nat} (h : f.formatN i = .ok j)
    (hn : f.opc.toNat = n) (hi : i.fields = ⟨BitVec.ofNat 8 n, 0, 0, 0⟩) : j.fields = { f with rsv := 0 } := by
  unfold Fields.formatN at h
  split at h
  · obtain ⟨ha, hb⟩ := ‹f.a = 0 ∧ f.b = 0›
    cases h
    simp [hi, ha, hb, ← hn]
  · cases h

theorem Fields.fields_of_formatA {f : Fields} {mk : Byte → Instr} {j : Instr} {n : Nat} (h : f.formatA mk = .ok j)
    (hn : f.opc.toNat = n) (hi : (mk f.a).fields = ⟨BitVec.ofNat 8 n, f.a, 0, 0⟩) : j.fields = { f with rsv := 0 } := by
  unfold Fields.formatA at h
  split at h
  · have hb : f.b = 0 := ‹_›
    cases h
    simp [hi, hb, ← hn]
  · cases h

/-- The encoder writes back the fields the decoder has read: the rows of R93 by format, `GFMUL` (AB) and `SBFIND` (C) on
their own. -/
theorem Fields.fields_of_decodeOpcode {f : Fields} {i : Instr} (h : f.decodeOpcode = .ok i) :
    i.fields = { f with rsv := 0 } := by
  have opc_eq {n : Nat} (hn : f.opc.toNat = n) : BitVec.ofNat 8 n = f.opc := by simp [← hn]
  unfold Fields.decodeOpcode at h
  split at h
  case h_5 hn => cases h; simp [Instr.fields, ← opc_eq hn]
  case h_11 hn =>
    cases h
    simp only [Instr.fields, Fields.cap, ← opc_eq hn, BitVec.extractLsb'_append_eq_right,
      BitVec.extractLsb'_append_eq_left]
    rfl
  case h_6 hn => exact fields_of_formatA h hn rfl
  case h_9 hn => exact fields_of_formatA h hn rfl
  case h_18 => cases h
  all_goals exact fields_of_formatN h ‹_› rfl

/-- `encode(decode(w)) = w` for every legal word (R98). -/
theorem encode_of_decode {w : Word} {i : Instr} (h : decode w = .ok i) : encode i = w := by
  unfold decode at h
  simp only at h
  split at h
  · cases h
  · have hr : (fieldsOf w).rsv = 0 := not_not.mp ‹_›
    rw [encode, Fields.fields_of_decodeOpcode h, ← hr]
    exact toWord_fieldsOf w

end Sys2Proof
end

section
/-! What a command, a trial of a search, a store and a step can do, said once: a relation for each, and the inversion lemma
that ties it to the model's function. The invariants below are case analyses over these relations. -/

namespace Sys2Proof.Machine

/-- The commands that deliver a byte in `RES` (R22). -/
def DeliversByte (i : Instr) : Prop :=
  (∃ a b, i = .gfmul a b) ∨ (∃ a, i = .gfinv a) ∨ (∃ a, i = .affapp a) ∨ i = .afftst

/-- What one trial of `SBFIND cap` after `n` trials can make of `s` (R128). -/
inductive TrialEffect (cap : Cap) (n : Nat) (s : State) : State → Prop
  /-- An invertible candidate ends the search. -/
  | commit (m : Matrix) :
      TrialEffect cap n s
        (succeed (replaceSbox (buildSbox m) { s with affm := m, rngPos := s.rngPos + 64, search := none }))
  /-- The cap is used up. -/
  | giveUp : TrialEffect cap n s (raise .noValidMatrixFound { s with rngPos := s.rngPos + 64, search := none })
  /-- The search goes on, within its cap. -/
  | goOn (hc : cap = 0 ∨ n + 1 < cap.toNat) :
      TrialEffect cap n s { s with rngPos := s.rngPos + 64, search := some ⟨cap, n + 1⟩ }

theorem trialEffect (cap : Cap) (n : Nat) (s : State) : TrialEffect cap n s (searchTrial cap n s) := by
  cases h : isInvertible (matrixAt s s.rngPos) with
  | true => rw [searchTrial_commit cap n s h]; exact .commit _
  | false =>
    by_cases hc : cap = 0 ∨ n + 1 < cap.toNat
    · rw [searchTrial_goOn cap n s h hc]; exact .goOn hc
    · obtain ⟨h0, hn⟩ := not_or.mp hc
      rw [searchTrial_giveUp cap n s h h0 (by omega)]; exact .giveUp

/-- What a command can make of `s` (30_encoding.md R93): an error recorded (R262), or its own effect. -/
inductive CommandEffect (s : State) : Instr → State → Prop
  | fails (i : Instr) (e : ErrCode) : CommandEffect s i (raise e s)
  | nop : CommandEffect s .nop (succeed s)
  | sbclr : CommandEffect s .sbclr (succeed (invalidate { s with sbLen := 0 }))
  | keyclr : CommandEffect s .keyclr (succeed { s with keyLen := 0 })
  | blkclr : CommandEffect s .blkclr (succeed { s with blkLen := 0 })
  | delivers (i : Instr) (v : Byte) (hi : DeliversByte i) : CommandEffect s i (setResult v s)
  | affrnd (m : Matrix) : CommandEffect s .affrnd (succeed (advanceRng 64 { s with affm := m }))
  | sbbld (t : Table) : CommandEffect s .sbbld (succeed (replaceSbox t s))
  | sbfind (cap : Cap) (t : State) (ht : TrialEffect cap 0 s t) : CommandEffect s (.sbfind cap) t
  | sbchk (hl : s.sbLen = 256) : CommandEffect s .sbchk (succeed
      { s with
        isBij := isBijective s.sbox
        isBal := isBalanced s.sbox
        bitcnt := tabulate fun i => BitVec.ofNat 9 (bitCount s.sbox i.val)
        chkValid := true })
  | kexp : CommandEffect s .kexp (succeed
      { s with
        esbox := s.sbox
        engBij := isBijective s.sbox
        einv := invSbox s.sbox
        rk := expandKey s.key s.sbox
        engValid := true })
  | writesOut (i : Instr) (b : Block) (hi : i = .enc ∨ i = .dec) :
      CommandEffect s i (succeed { s with out := b, outValid := true })
  | fwht (w : WorkVector) : CommandEffect s .fwht (succeed { s with w := w })
  | analyze (hl : s.sbLen = 256) : CommandEffect s .analyze (succeed
      { s with
        nl := BitVec.ofNat 8 (metricNl s.sbox)
        sacNum := BitVec.ofNat 15 (metricSac s.sbox)
        bicNl := BitVec.ofNat 8 (metricBicNl s.sbox)
        bicSacNum := BitVec.ofNat 16 (metricBicSac s.sbox)
        lapNum := BitVec.ofNat 9 (metricLap s.sbox)
        du := BitVec.ofNat 9 (metricDu s.sbox)
        dapNum := BitVec.ofNat 9 (metricDu s.sbox)
        ad := BitVec.ofNat 4 (metricAd s.sbox)
        ci := BitVec.ofNat 4 (metricCi s.sbox)
        toNum := BitVec.ofInt 32 (metricTo s.sbox)
        anaValid := true })

/-- Inversion of `exec`. -/
theorem commandEffect_of_exec {i : Instr} {s t : State} (h : exec i s = .next t) : CommandEffect s i t := by
  cases i with
  | nop => cases h; exact .nop
  | sbclr => cases h; exact .sbclr
  | keyclr => cases h; exact .keyclr
  | blkclr => cases h; exact .blkclr
  | gfmul a b => cases h; exact .delivers _ _ (.inl ⟨a, b, rfl⟩)
  | gfinv a => cases h; exact .delivers _ _ (.inr (.inl ⟨a, rfl⟩))
  | affapp a => cases h; exact .delivers _ _ (.inr (.inr (.inl ⟨a, rfl⟩)))
  | afftst => cases h; exact .delivers _ _ (.inr (.inr (.inr rfl)))
  | affrnd => cases h; exact .affrnd _
  | sbfind cap => cases h; exact .sbfind cap _ (trialEffect cap 0 s)
  | sbbld =>
    simp only [exec, execSbbld] at h
    split at h <;> cases h
    · exact .sbbld _
    · exact .fails _ _
  | sbchk =>
    simp only [exec, execSbchk] at h
    split at h <;> cases h
    · exact .fails _ _
    · exact .sbchk (not_not.mp ‹_›)
  | kexp =>
    simp only [exec, execKexp] at h
    split at h
    · cases h; exact .fails _ _
    · split at h <;> cases h
      · exact .fails _ _
      · exact .kexp
  | enc =>
    simp only [exec, execEnc] at h
    split at h
    · cases h; exact .fails _ _
    · split at h <;> cases h
      · exact .fails _ _
      · exact .writesOut _ _ (.inl rfl)
  | dec =>
    simp only [exec, execDec] at h
    split at h
    · cases h; exact .fails _ _
    · split at h
      · cases h; exact .fails _ _
      · split at h <;> cases h
        · exact .fails _ _
        · exact .writesOut _ _ (.inr rfl)
  | fwht =>
    simp only [exec, execFwht] at h
    split at h <;> cases h
    · exact .fwht _
    · exact .fails _ _
  | analyze =>
    simp only [exec, execAnalyze] at h
    split at h <;> cases h
    · exact .fails _ _
    · exact .analyze (not_not.mp ‹_›)

/-- What an accepted store can make of `s` (R66 to R71). -/
inductive StoreEffect (s : State) : State → Prop
  | esticky (data : Word) : StoreEffect s (clearSticky data s)
  | sbPush (d : Byte) : StoreEffect s (pushSbox d s)
  | keyPush (d : Byte) : StoreEffect s (pushKey d s)
  | blkPush (d : Byte) : StoreEffect s (pushBlk d s)
  | affm (m : Matrix) : StoreEffect s { s with affm := m }
  | w (w : WorkVector) : StoreEffect s { s with w := w }

/-- Inversion of `storeLoc`. -/
theorem storeEffect_of_storeLoc {l : Loc} {data : Word} {s t : State} (h : storeLoc l data s = some t) :
    StoreEffect s t := by
  cases l
  case esticky => cases h; exact .esticky data
  case sbPush => simp only [storeLoc] at h; obtain ⟨-, rfl⟩ := byteWrite_eq_some h; exact .sbPush _
  case keyPush => simp only [storeLoc] at h; obtain ⟨-, rfl⟩ := byteWrite_eq_some h; exact .keyPush _
  case blkPush => simp only [storeLoc] at h; obtain ⟨-, rfl⟩ := byteWrite_eq_some h; exact .blkPush _
  case affm r => simp only [storeLoc] at h; obtain ⟨-, rfl⟩ := byteWrite_eq_some h; exact .affm _
  case w i => cases h; exact .w _
  all_goals cases h

/-- What a step can make of `s` (00_scope.md R10; 20_memory.md R61 to R65; 70_reset_and_hazards.md R280): the host's moves
advance, one effect, and an answer or none. -/
inductive StepEffect (s : State) : State → Prop
  /-- `RST`. -/
  | reset (rest : List HostMove) (hi : s.inbox = .rst :: rest) : StepEffect s (resetEvent { s with inbox := rest })
  /-- An idle step, a read, or a refused write. -/
  | quiet (moves : List HostMove) (a : Option Answer) : StepEffect s { s with inbox := moves, answer := a }
  /-- An accepted store. -/
  | store (moves : List HostMove) (a : Option Answer) (u : State) (hu : StoreEffect { s with inbox := moves } u) :
      StepEffect s { u with answer := a }
  /-- A write to `CMD` of a word that is no command (R94). -/
  | illegal (moves : List HostMove) (a : Option Answer) :
      StepEffect s { raise .illegalCommand { s with inbox := moves } with answer := a }
  /-- A write of a command's word to `CMD`. -/
  | command (i : Instr) (rest : List HostMove) (a : Option Answer) (u : State)
      (hi : s.inbox = .write Loc.cmd.addr (encode i) :: rest) (hu : CommandEffect { s with inbox := rest } i u) :
      StepEffect s { u with answer := a }
  /-- A trial of a running search. -/
  | trial (f : Search) (moves : List HostMove) (a : Option Answer) (u : State) (hf : s.search = some f)
      (hu : TrialEffect f.cap f.trials { s with inbox := moves } u) : StepEffect s { u with answer := a }

theorem stepEffect_of_searchStep {f : Search} {moves : List HostMove} {s t : State} (hf : s.search = some f)
    (h : searchStep f { s with inbox := moves } = .next t) : StepEffect s t := by
  obtain ⟨u, hu, rfl⟩ := commandAnswer_eq_next h
  cases hu
  exact .trial f moves _ _ hf (trialEffect ..)

theorem stepEffect_of_hostStore {l : Loc} {data : Word} {moves : List HostMove} (s : State) :
    StepEffect s (hostStore l data { s with inbox := moves }) := by
  obtain ⟨u, hu, e⟩ | ⟨-, e⟩ := hostStore_cases l data { s with inbox := moves }
  · rw [e]; exact .store moves _ u (storeEffect_of_storeLoc hu)
  · rw [e]; exact .quiet moves _

/-- A write is refused, a store, or, to the one address of `CMD`, a command word. -/
theorem stepEffect_of_hostWrite {addr : Addr} {data : Word} {rest : List HostMove} {s t : State}
    (hi : s.inbox = .write addr data :: rest) (h : hostWrite addr data { s with inbox := rest } = .next t) :
    StepEffect s t := by
  unfold hostWrite at h
  split at h
  · cases h; exact .quiet rest _
  · obtain rfl := Loc.addr_of_ofAddr _ ‹_›
    obtain ⟨u, hu, rfl⟩ := commandAnswer_eq_next h
    unfold runCommand at hu
    split at hu
    · obtain rfl := encode_of_decode ‹_›
      exact .command _ rest _ u hi (commandEffect_of_exec hu)
    · cases hu; exact .illegal rest _
  · cases h; exact stepEffect_of_hostStore s

/-- Inversion of `step`. -/
theorem stepEffect_of_step {s t : State} (h : step s = .next t) : StepEffect s t := by
  rcases step_cases s with ⟨rest, hi, e⟩ | ⟨f, rest, hf, -, e⟩ | ⟨f, hf, -, -, e⟩ | ⟨-, -, e⟩ |
    ⟨m, rest, -, hi, hm, e⟩ <;> rw [e] at h
  · cases h; exact .reset rest hi
  · exact stepEffect_of_searchStep hf h
  · exact stepEffect_of_searchStep (moves := s.inbox) hf h
  · cases h; exact .quiet s.inbox none
  · cases m with
    | read addr => cases h; rw [hostRead_eq]; exact .quiet rest _
    | write addr data => exact stepEffect_of_hostWrite hi h
    | idle => cases h; exact .quiet rest none
    | rst => exact absurd rfl hm

end Sys2Proof.Machine
end

section
/-! The registers each effect leaves unchanged: the engine (10_state.md R38), the result flags (R42), and every command's
registers (R22 to R40). -/

namespace Sys2Proof.Machine

open Sys2Proof.Safety

/-! ### The push buffers, register by register -/

/-- A push into `SBOX` writes `SBOX`, `SBLEN` and the two result flags alone (R67). -/
theorem pushSbox_eq (d : Byte) (s : State) :
    ∃ b n, pushSbox d s = { s with sbox := b, sbLen := n, chkValid := false, anaValid := false } := by
  by_cases h : s.sbLen.val < 256
  · exact ⟨_, _, pushSbox_room d s h⟩
  · exact ⟨_, _, pushSbox_full d s (by omega)⟩

/-- A push into `KEY` writes `KEY` and `KEYLEN` alone (R68). -/
theorem pushKey_eq (d : Byte) (s : State) : ∃ b n, pushKey d s = { s with key := b, keyLen := n } := by
  by_cases h : s.keyLen.val < 16
  · exact ⟨_, _, pushKey_room d s h⟩
  · exact ⟨_, _, pushKey_full d s (by omega)⟩

/-- A push into `BLK` writes `BLK` and `BLKLEN` alone (R69). -/
theorem pushBlk_eq (d : Byte) (s : State) : ∃ b n, pushBlk d s = { s with blk := b, blkLen := n } := by
  by_cases h : s.blkLen.val < 16
  · exact ⟨_, _, pushBlk_room d s h⟩
  · exact ⟨_, _, pushBlk_full d s (by omega)⟩

/-! ### The engine -/

/-- The registers that `KEXP` fills are the same in both states (R38). -/
def EngineKept (s t : State) : Prop :=
  t.esbox = s.esbox ∧ t.einv = s.einv ∧ t.rk = s.rk ∧ t.engValid = s.engValid ∧ t.engBij = s.engBij

theorem TrialEffect.engineKept {cap : Cap} {n : Nat} {s t : State} (h : TrialEffect cap n s t) : EngineKept s t := by
  cases h <;> exact ⟨rfl, rfl, rfl, rfl, rfl⟩

theorem StoreEffect.engineKept {s t : State} (h : StoreEffect s t) : EngineKept s t := by
  cases h with
  | sbPush d => obtain ⟨b, n, e⟩ := pushSbox_eq d s; rw [e]; exact ⟨rfl, rfl, rfl, rfl, rfl⟩
  | keyPush d => obtain ⟨b, n, e⟩ := pushKey_eq d s; rw [e]; exact ⟨rfl, rfl, rfl, rfl, rfl⟩
  | blkPush d => obtain ⟨b, n, e⟩ := pushBlk_eq d s; rw [e]; exact ⟨rfl, rfl, rfl, rfl, rfl⟩
  | esticky data => exact ⟨rfl, rfl, rfl, rfl, rfl⟩
  | affm m => exact ⟨rfl, rfl, rfl, rfl, rfl⟩
  | w w => exact ⟨rfl, rfl, rfl, rfl, rfl⟩

theorem CommandEffect.engineKept {i : Instr} {s t : State} (h : CommandEffect s i t) (hi : i ≠ .kexp) :
    EngineKept s t := by
  cases h with
  | kexp => exact absurd rfl hi
  | sbfind cap t ht => exact ht.engineKept
  | _ => exact ⟨rfl, rfl, rfl, rfl, rfl⟩

theorem StepEffect.engineKept {s t : State} (h : StepEffect s t) (hr : s.inbox.head? ≠ some .rst)
    (hk : s.inbox.head? ≠ some (.write Loc.cmd.addr (encode .kexp))) : EngineKept s t := by
  cases h with
  | reset rest hi => exact absurd (by rw [hi]; rfl) hr
  | quiet moves a => exact ⟨rfl, rfl, rfl, rfl, rfl⟩
  | store moves a u hu => exact hu.engineKept
  | illegal moves a => exact ⟨rfl, rfl, rfl, rfl, rfl⟩
  | command i rest a u hi hu =>
    refine hu.engineKept fun e => hk ?_
    rw [hi, e]; rfl
  | trial f moves a u hf hu => exact hu.engineKept

/-! ### The working S-box and its result flags -/

/-- `SBOX` and `SBLEN` are the same in both states, or both result flags are cleared in the second (R42). -/
def SboxKeptOrFlagsCleared (s t : State) : Prop :=
  (t.sbox = s.sbox ∧ t.sbLen = s.sbLen) ∨ (t.chkValid = false ∧ t.anaValid = false)

theorem TrialEffect.sboxKeptOrFlagsCleared {cap : Cap} {n : Nat} {s t : State} (h : TrialEffect cap n s t) :
    SboxKeptOrFlagsCleared s t := by
  cases h with
  | commit m => exact .inr ⟨rfl, rfl⟩
  | giveUp => exact .inl ⟨rfl, rfl⟩
  | goOn hc => exact .inl ⟨rfl, rfl⟩

theorem StoreEffect.sboxKeptOrFlagsCleared {s t : State} (h : StoreEffect s t) : SboxKeptOrFlagsCleared s t := by
  cases h with
  | sbPush d => exact .inr ⟨rfl, rfl⟩
  | keyPush d => obtain ⟨b, n, e⟩ := pushKey_eq d s; rw [e]; exact .inl ⟨rfl, rfl⟩
  | blkPush d => obtain ⟨b, n, e⟩ := pushBlk_eq d s; rw [e]; exact .inl ⟨rfl, rfl⟩
  | esticky data => exact .inl ⟨rfl, rfl⟩
  | affm m => exact .inl ⟨rfl, rfl⟩
  | w w => exact .inl ⟨rfl, rfl⟩

theorem CommandEffect.sboxKeptOrFlagsCleared {i : Instr} {s t : State} (h : CommandEffect s i t) :
    SboxKeptOrFlagsCleared s t := by
  cases h with
  | sbclr => exact .inr ⟨rfl, rfl⟩
  | sbbld t => exact .inr ⟨rfl, rfl⟩
  | sbfind cap t ht => exact ht.sboxKeptOrFlagsCleared
  | _ => exact .inl ⟨rfl, rfl⟩

theorem StepEffect.sboxKeptOrFlagsCleared {s t : State} (h : StepEffect s t) : SboxKeptOrFlagsCleared s t := by
  cases h with
  | reset rest hi => exact .inr ⟨rfl, rfl⟩
  | quiet moves a => exact .inl ⟨rfl, rfl⟩
  | store moves a u hu => exact hu.sboxKeptOrFlagsCleared
  | illegal moves a => exact .inl ⟨rfl, rfl⟩
  | command i rest a u hi hu => exact hu.sboxKeptOrFlagsCleared
  | trial f moves a u hf hu => exact hu.sboxKeptOrFlagsCleared

/-! ### The status word -/

theorem getLsbD_flagAt {i : Nat} (b : Bool) (j : Nat) (hi : i < 32) :
    (flagAt i b).getLsbD j = (b && decide (j = i)) := by
  cases b with
  | false => simp [flagAt]
  | true => simp [flagAt, BitVec.getLsbD_twoPow, hi, eq_comm]

/-- Bit `j` of `STATUS` (R26): `ERR` below bit 8, and each flag at its own bit. -/
theorem getLsbD_statusWord (s : State) (j : Nat) :
    (statusWord s).getLsbD j =
      (s.err.getLsbD j || (s.resValid && decide (j = 8)) || (s.chkValid && decide (j = 9)) ||
        (s.anaValid && decide (j = 10)) || (s.engValid && decide (j = 11)) ||
        ((s.engValid && s.engBij) && decide (j = 12)) || (s.outValid && decide (j = 13))) := by
  have he : (s.err.setWidth 32).getLsbD j = s.err.getLsbD j := by
    by_cases hj : j < 32
    · simp [hj]
    · simp [hj, BitVec.getLsbD_of_ge s.err j (by omega)]
  simp only [statusWord, BitVec.getLsbD_or, he, getLsbD_flagAt _ j (by decide : 8 < 32),
    getLsbD_flagAt _ j (by decide : 9 < 32), getLsbD_flagAt _ j (by decide : 10 < 32),
    getLsbD_flagAt _ j (by decide : 11 < 32), getLsbD_flagAt _ j (by decide : 12 < 32),
    getLsbD_flagAt _ j (by decide : 13 < 32)]

/-! ### The reset state -/

/-- The addresses whose location is behind a gate (R70). -/
def GatedAddress (n : Nat) : Prop :=
  n = 0x004 ∨ (0x020 ≤ n ∧ n ≤ 0x028) ∨ (0x030 ≤ n ∧ n ≤ 0x039) ∨ (0x040 ≤ n ∧ n ≤ 0x05F) ∨
    (0x100 ≤ n ∧ n ≤ 0x1FF) ∨ (0x400 ≤ n ∧ n ≤ 0x6AF)

/-- A location is behind a gate that is closed at reset, or its address is not in the gated ranges. -/
theorem readLoc_reset_or_ungated (l : Loc) : readLoc l State.reset = none ∨ ¬GatedAddress l.addr.toNat := by
  cases l
  case id | cmd | status | esticky | sbLen | keyLen | blkLen | sbPush | keyPush | blkPush | affc =>
    exact .inr (by unfold GatedAddress Loc.addr; decide)
  case affm r | invtab r | w r =>
    right
    simp only [GatedAddress, Loc.addr, BitVec.toNat_ofNat]
    omega
  all_goals exact .inl rfl

theorem readWord_reset_of_gated (n : Nat) (h : GatedAddress n) : readWord (BitVec.ofNat 12 n) State.reset = none := by
  unfold readWord
  cases hl : Loc.ofAddr (BitVec.ofNat 12 n) with
  | none => rfl
  | some l =>
    have hn : l.addr.toNat = n := by
      rw [Loc.addr_of_ofAddr _ hl, BitVec.toNat_ofNat]
      unfold GatedAddress at h
      omega
    exact (readLoc_reset_or_ungated l).resolve_right (not_not.mpr (hn ▸ h))

end Sys2Proof.Machine

namespace Sys2Proof.Safety

open Sys2Proof.Machine

/-- At reset there is no code, no engine, no result and no search (R55). -/
theorem inv_reset : Inv State.reset where
  codes := ⟨by decide, fun n h => by simp [State.reset] at h⟩
  engine := ⟨fun _ => rfl, nofun⟩
  checked := nofun
  analysed := nofun
  search := nofun

end Sys2Proof.Safety

namespace Sys2Proof.Proofs

open Sys2Proof.Machine Sys2Proof.Safety

/-- Settles O44: the one effect on the engine that is no reset is `KEXP`'s, and only its own word decodes to it. -/
theorem onlyKexpChangesTheEngine : Obligations.OnlyKexpChangesTheEngine :=
  fun _ _ hr hk h => (stepEffect_of_step h).engineKept hr hk

/-- Settles O56: no effect of a step changes `SBOX` or `SBLEN` and keeps a result flag. -/
theorem sboxChangesClearTheResultFlags : Obligations.SboxChangesClearTheResultFlags := by
  intro s t h hc
  obtain ⟨hb, hl⟩ | hf := (stepEffect_of_step h).sboxKeptOrFlagsCleared
  · exact absurd hc (by simp [hb, hl])
  · exact hf

/-- Settles O57, effect by effect. -/
theorem commandsWriteOnlyTheirRegisters : Obligations.CommandsWriteOnlyTheirRegisters := by
  intro i s t h
  cases commandEffect_of_exec h with
  | delivers i v hi => simpa [DeliversByte] using fun _ => hi
  | writesOut i b hi => simpa using fun _ => hi
  | sbfind cap t ht => cases ht <;> simp
  | _ => simp

/-- Settles O11, bit by bit. -/
theorem statusAssemblesTheFlags : Obligations.StatusAssemblesTheFlags := by
  intro s
  refine ⟨?_, ?_, ?_, ?_, ?_, ?_, ?_, ?_⟩
  case refine_1 =>
    apply BitVec.eq_of_getLsbD_eq
    intro j hj
    have flags_above (k : Nat) (hk : 8 ≤ k) : decide (j = k) = false := decide_eq_false (by omega)
    rw [BitVec.getLsbD_extractLsb', Nat.zero_add, getLsbD_statusWord]
    simp [hj, flags_above]
  case refine_8 =>
    apply BitVec.eq_of_getLsbD_eq
    intro j hj
    have flags_below (k : Nat) (hk : k < 14) : decide (14 + j = k) = false := decide_eq_false (by omega)
    rw [BitVec.getLsbD_extractLsb', getLsbD_statusWord]
    simp [flags_below, BitVec.getLsbD_of_ge s.err (14 + j) (by omega)]
  all_goals
    rw [getLsbD_statusWord]
    simp

/-- Settles O18: at reset each gate is closed, and the gated addresses name gated locations only. -/
theorem resetStateClosesEveryGate : Obligations.ResetStateClosesEveryGate :=
  ⟨rfl, rfl, rfl, rfl, rfl, rfl, rfl, rfl, rfl, rfl, rfl, rfl, rfl, rfl, readWord_reset_of_gated⟩

/-- Settles O58. -/
theorem invariantHoldsAtReset : Obligations.InvariantHoldsAtReset := inv_reset

end Sys2Proof.Proofs
end

section
/-! Contents behind a closed gate are unobservable (10_state.md R55): every shared operation, every read, every store, every
command and every step keeps `Indistinguishable`. -/

namespace Sys2Proof.Safety

open Sys2Proof.Machine

variable {s t : State}

/-! ### What is behind an open gate is the same -/

theorem Indistinguishable.sbox_eq (h : Indistinguishable s t) (hl : s.sbLen = 256) : s.sbox = t.sbox := by
  have hv : s.sbLen.val = 256 := by rw [hl]; rfl
  exact Vector.ext fun x hx => h.sbox hv.le x hx (by omega)

theorem Indistinguishable.key_eq (h : Indistinguishable s t) (hl : s.keyLen = 16) : s.key = t.key := by
  have hv : s.keyLen.val = 16 := by rw [hl]; rfl
  exact Vector.ext fun x hx => h.key hv.le x hx (by omega)

theorem Indistinguishable.blk_eq (h : Indistinguishable s t) (hl : s.blkLen = 16) : s.blk = t.blk := by
  have hv : s.blkLen.val = 16 := by rw [hl]; rfl
  exact Vector.ext fun x hx => h.blk hv.le x hx (by omega)

/-! ### Shared operations -/

theorem Indistinguishable.withInbox (h : Indistinguishable s t) (moves : List HostMove) :
    Indistinguishable { s with inbox := moves } { t with inbox := moves } :=
  { h with inbox := rfl }

theorem Indistinguishable.withAnswer (h : Indistinguishable s t) {a a' : Option Answer} (e : a = a') :
    Indistinguishable { s with answer := a } { t with answer := a' } :=
  { h with answer := e }

theorem Indistinguishable.withSearch (h : Indistinguishable s t) (f : Option Search) :
    Indistinguishable { s with search := f } { t with search := f } :=
  { h with search := rfl }

theorem Indistinguishable.withAffm (h : Indistinguishable s t) {m m' : Matrix} (e : m = m') :
    Indistinguishable { s with affm := m } { t with affm := m' } :=
  { h with affm := e }

theorem Indistinguishable.withW (h : Indistinguishable s t) {w w' : WorkVector} (e : w = w') :
    Indistinguishable { s with w := w } { t with w := w' } :=
  { h with w := e }

theorem Indistinguishable.withOut (h : Indistinguishable s t) {b b' : Block} (e : b = b') :
    Indistinguishable { s with out := b, outValid := true } { t with out := b', outValid := true } :=
  { h with out := fun _ => e, outValid := rfl }

protected theorem Indistinguishable.advanceRng (h : Indistinguishable s t) (n : Nat) :
    Indistinguishable (advanceRng n s) (advanceRng n t) :=
  { h with rngPos := congrArg (· + n) h.rngPos }

protected theorem Indistinguishable.succeed (h : Indistinguishable s t) : Indistinguishable (succeed s) (succeed t) :=
  { h with err := rfl }

protected theorem Indistinguishable.raise (h : Indistinguishable s t) (e : ErrCode) :
    Indistinguishable (raise e s) (raise e t) :=
  { h with err := rfl, esticky := congrArg (· ||| BitVec.twoPow 16 e.code) h.esticky }

protected theorem Indistinguishable.clearSticky (h : Indistinguishable s t) (d : Word) :
    Indistinguishable (clearSticky d s) (clearSticky d t) :=
  { h with esticky := congrArg (· &&& ~~~(d.setWidth 16)) h.esticky }

protected theorem Indistinguishable.setResult (h : Indistinguishable s t) (v : Byte) :
    Indistinguishable (setResult v s) (setResult v t) :=
  { h with err := rfl, resValid := rfl, res := fun _ => rfl }

protected theorem Indistinguishable.invalidate (h : Indistinguishable s t) :
    Indistinguishable (invalidate s) (invalidate t) :=
  { h with chkValid := rfl, anaValid := rfl, checked := nofun, analysed := nofun }

protected theorem Indistinguishable.replaceSbox (h : Indistinguishable s t) (b : Table) :
    Indistinguishable (replaceSbox b s) (replaceSbox b t) :=
  Indistinguishable.invalidate { h with sbox := fun _ _ _ _ => rfl, sbLen := rfl }

protected theorem Indistinguishable.refl (s : State) : Indistinguishable s s := by constructor <;> simp

protected theorem Indistinguishable.resetEvent (h : Indistinguishable s t) :
    Indistinguishable (resetEvent s) (resetEvent t) := by
  have e : resetEvent s = resetEvent t := by simp only [resetEvent, h.rngPos, h.rngScript, h.inbox]
  exact e ▸ .refl _

/-! ### Push buffers -/

/-- Two buffers that agree below `n` agree below `n + 1` once the same byte is written at `n`. -/
theorem getElem_set_eq_of_agree {m n : Nat} {u v : Vector Byte m} (hn : n < m) (d : Byte)
    (h : ∀ (x : Nat) (hx : x < m), x < n → u[x] = v[x]) (x : Nat) (hx : x < m) (hxn : x < n + 1) :
    (u.set n d hn)[x] = (v.set n d hn)[x] := by
  by_cases e : n = x
  · simp [e]
  · simp [e, h x hx (by omega)]

protected theorem Indistinguishable.pushSbox (h : Indistinguishable s t) (d : Byte) :
    Indistinguishable (pushSbox d s) (pushSbox d t) := by
  by_cases hl : s.sbLen.val < 256
  · have hl' : t.sbLen.val < 256 := h.sbLen ▸ hl
    rw [pushSbox_room d s hl, pushSbox_room d t hl']
    refine { h.invalidate with sbLen := Fin.ext (congrArg (fun n : Fin 258 => n.val + 1) h.sbLen), sbox := fun _ => ?_ }
    simpa only [h.sbLen] using getElem_set_eq_of_agree hl d (h.sbox hl.le)
  · have hl' : 256 ≤ t.sbLen.val := h.sbLen ▸ not_lt.mp hl
    rw [pushSbox_full d s (not_lt.mp hl), pushSbox_full d t hl']
    exact { h.invalidate with sbLen := rfl, sbox := fun e => absurd e (by simp) }

protected theorem Indistinguishable.pushKey (h : Indistinguishable s t) (d : Byte) :
    Indistinguishable (pushKey d s) (pushKey d t) := by
  by_cases hl : s.keyLen.val < 16
  · have hl' : t.keyLen.val < 16 := h.keyLen ▸ hl
    rw [pushKey_room d s hl, pushKey_room d t hl']
    refine { h with keyLen := Fin.ext (congrArg (fun n : Fin 18 => n.val + 1) h.keyLen), key := fun _ => ?_ }
    simpa only [h.keyLen] using getElem_set_eq_of_agree hl d (h.key hl.le)
  · have hl' : 16 ≤ t.keyLen.val := h.keyLen ▸ not_lt.mp hl
    rw [pushKey_full d s (not_lt.mp hl), pushKey_full d t hl']
    exact { h with keyLen := rfl, key := fun e => absurd e (by simp) }

protected theorem Indistinguishable.pushBlk (h : Indistinguishable s t) (d : Byte) :
    Indistinguishable (pushBlk d s) (pushBlk d t) := by
  by_cases hl : s.blkLen.val < 16
  · have hl' : t.blkLen.val < 16 := h.blkLen ▸ hl
    rw [pushBlk_room d s hl, pushBlk_room d t hl']
    refine { h with blkLen := Fin.ext (congrArg (fun n : Fin 18 => n.val + 1) h.blkLen), blk := fun _ => ?_ }
    simpa only [h.blkLen] using getElem_set_eq_of_agree hl d (h.blk hl.le)
  · have hl' : 16 ≤ t.blkLen.val := h.blkLen ▸ not_lt.mp hl
    rw [pushBlk_full d s (not_lt.mp hl), pushBlk_full d t hl']
    exact { h with blkLen := rfl, blk := fun e => absurd e (by simp) }

/-! ### Reads -/

/-- Reads behind the same gate are the same when the values behind it are, the gate being open. -/
theorem gated_congr {g g' : Bool} {v v' : Word} (hg : g = g') (hv : g = true → v = v') : gated g v = gated g' v' := by
  subst hg
  cases g with
  | false => rfl
  | true => exact congrArg (gated true) (hv rfl)

/-- The engine's flags read the same: its verdict is masked while there is no engine (R26). -/
theorem Indistinguishable.engBij_masked (h : Indistinguishable s t) :
    (s.engValid && s.engBij) = (t.engValid && t.engBij) := by
  rw [← h.engValid]
  cases hv : s.engValid with
  | false => rfl
  | true => exact h.engBij hv

protected theorem Indistinguishable.statusWord (h : Indistinguishable s t) : statusWord s = statusWord t := by
  unfold statusWord
  rw [h.engBij_masked, h.err, h.resValid, h.chkValid, h.anaValid, h.engValid, h.outValid]

protected theorem Indistinguishable.readLoc (h : Indistinguishable s t) (l : Loc) : readLoc l s = readLoc l t := by
  cases l
  case id | cmd | sbPush | keyPush | blkPush | affc | invtab => rfl
  case status => exact congrArg some h.statusWord
  case esticky => simp only [readLoc, h.esticky]
  case sbLen => simp only [readLoc, h.sbLen]
  case keyLen => simp only [readLoc, h.keyLen]
  case blkLen => simp only [readLoc, h.blkLen]
  case affm r => simp only [readLoc, h.affm]
  case w i => simp only [readLoc, h.w]
  case res => exact gated_congr h.resValid fun e => by rw [h.res e]
  case out i => exact gated_congr h.outValid fun e => by rw [h.out e]
  case key i => exact gated_congr (by rw [h.keyLen]) fun e => by rw [h.key_eq (eq_of_beq e)]
  case sbox x => exact gated_congr (by rw [h.sbLen]) fun e => by rw [h.sbox_eq (eq_of_beq e)]
  case esbox x => exact gated_congr h.engValid fun e => by rw [h.esbox e]
  case rk i j => exact gated_congr h.engValid fun e => by rw [h.rk e]
  case einv y =>
    refine gated_congr h.engBij_masked fun e => ?_
    obtain ⟨hv, hb⟩ := Bool.and_eq_true_iff.mp e
    rw [h.einv hv hb]
  case bitcnt i => exact gated_congr h.chkValid fun e => by rw [(h.checked e).1]
  case chkFlags => exact gated_congr h.chkValid fun e => by simp only [chkFlagsWord, h.checked e]
  case nl | sacNum | bicNl | bicSacNum | lapNum | dapNum | du | ad | toNum | ci =>
    exact gated_congr h.anaValid fun e => by simp only [h.analysed e]

theorem Indistinguishable.readWord_eq (h : Indistinguishable s t) (addr : Addr) : readWord addr s = readWord addr t :=
  Option.bind_congr fun l _ => h.readLoc l

/-! ### Outcomes -/

/-- Whatever the first outcome goes on in, the second goes on in a state that cannot be told from it. -/
def OutcomesAgree (o o' : Outcome) : Prop :=
  ∀ s', o = .next s' → ∃ t', o' = .next t' ∧ Indistinguishable s' t'

theorem Indistinguishable.next (h : Indistinguishable s t) : OutcomesAgree (.next s) (.next t) := by
  rintro s' ⟨rfl⟩
  exact ⟨t, rfl, h⟩

/-- Two commands that make the same test agree when both of their branches do. -/
theorem OutcomesAgree.ite {c c' : Prop} [Decidable c] [Decidable c'] {a b a' b' : Outcome} (hc : c ↔ c')
    (ha : c → OutcomesAgree a a') (hb : ¬c → OutcomesAgree b b') :
    OutcomesAgree (if c then a else b) (if c' then a' else b') := by
  by_cases e : c
  · rw [if_pos e, if_pos (hc.mp e)]; exact ha e
  · rw [if_neg e, if_neg (mt hc.mpr e)]; exact hb e

protected theorem OutcomesAgree.commandAnswer {o o' : Outcome} (h : OutcomesAgree o o') :
    OutcomesAgree (commandAnswer o) (commandAnswer o') := by
  intro s' e
  obtain ⟨u, hu, rfl⟩ := commandAnswer_eq_next e
  obtain ⟨v, rfl, hv⟩ := h u hu
  exact ⟨_, rfl, hv.withAnswer (by rw [hv.search])⟩

/-! ### Commands -/

protected theorem Indistinguishable.searchTrial (h : Indistinguishable s t) (cap : Cap) (n : Nat) :
    Indistinguishable (searchTrial cap n s) (searchTrial cap n t) := by
  have hm : matrixAt t t.rngPos = matrixAt s s.rngPos := by rw [matrixAt_congr h.rngScript, h.rngPos]
  have h64 := (h.withSearch none).advanceRng 64
  simp only [searchTrial, hm]
  split
  · exact ((h64.withAffm rfl).replaceSbox _).succeed
  · split
    · exact h64.raise _
    · exact h64.withSearch _

theorem Indistinguishable.clearSbLen (h : Indistinguishable s t) :
    Indistinguishable { s with sbLen := 0 } { t with sbLen := 0 } :=
  { h with sbLen := rfl, sbox := fun _ x _ hx => absurd hx x.not_lt_zero }

theorem Indistinguishable.clearKeyLen (h : Indistinguishable s t) :
    Indistinguishable { s with keyLen := 0 } { t with keyLen := 0 } :=
  { h with keyLen := rfl, key := fun _ x _ hx => absurd hx x.not_lt_zero }

theorem Indistinguishable.clearBlkLen (h : Indistinguishable s t) :
    Indistinguishable { s with blkLen := 0 } { t with blkLen := 0 } :=
  { h with blkLen := rfl, blk := fun _ x _ hx => absurd hx x.not_lt_zero }

protected theorem Indistinguishable.execSbchk (h : Indistinguishable s t) : OutcomesAgree (execSbchk s) (execSbchk t) := by
  refine .ite (by rw [h.sbLen]) (fun _ => (h.raise _).next) fun hl => Indistinguishable.next ?_
  have hb := h.sbox_eq (not_not.mp hl)
  exact { h with err := rfl, chkValid := rfl, checked := fun _ => by simp only [succeed, hb, and_self] }

protected theorem Indistinguishable.execKexp (h : Indistinguishable s t) : OutcomesAgree (execKexp s) (execKexp t) := by
  refine .ite (by rw [h.keyLen]) (fun _ => (h.raise _).next) fun hk =>
    .ite (by rw [h.sbLen]) (fun _ => (h.raise _).next) fun hl => Indistinguishable.next ?_
  have hb := h.sbox_eq (not_not.mp hl)
  have hkey := h.key_eq (not_not.mp hk)
  exact { h with
    err := rfl
    engValid := rfl
    engBij := fun _ => congrArg isBijective hb
    esbox := fun _ => hb
    einv := fun _ _ => congrArg invSbox hb
    rk := fun _ => congrArg₂ expandKey hkey hb }

/-- The engine is read behind `ENG_VALID`, the block behind its length (R166). -/
protected theorem Indistinguishable.execEnc (h : Indistinguishable s t) : OutcomesAgree (execEnc s) (execEnc t) := by
  refine .ite (by rw [h.engValid]) (fun _ => (h.raise _).next) fun hv =>
    .ite (by rw [h.blkLen]) (fun _ => (h.raise _).next) fun hl => Indistinguishable.next ?_
  have hv' : s.engValid = true := Bool.eq_true_of_not_eq_false hv
  exact (h.withOut (by rw [h.esbox hv', h.rk hv', h.blk_eq (not_not.mp hl)])).succeed

/-- `EINV` is read behind `ENG_BIJ` as well (R167, R171). -/
protected theorem Indistinguishable.execDec (h : Indistinguishable s t) : OutcomesAgree (execDec s) (execDec t) := by
  refine .ite (by rw [h.engValid]) (fun _ => (h.raise _).next) fun hv =>
    .ite (by rw [h.blkLen]) (fun _ => (h.raise _).next) fun hl => ?_
  have hv' : s.engValid = true := Bool.eq_true_of_not_eq_false hv
  refine .ite (by rw [h.engBij hv']) (fun _ => (h.raise _).next) fun hb => Indistinguishable.next ?_
  have hb' : s.engBij = true := Bool.eq_true_of_not_eq_false hb
  exact (h.withOut (by rw [h.einv hv' hb', h.rk hv', h.blk_eq (not_not.mp hl)])).succeed

protected theorem Indistinguishable.execAnalyze (h : Indistinguishable s t) :
    OutcomesAgree (execAnalyze s) (execAnalyze t) := by
  refine .ite (by rw [h.sbLen]) (fun _ => (h.raise _).next) fun hl => Indistinguishable.next ?_
  have hb := h.sbox_eq (not_not.mp hl)
  exact { h with err := rfl, anaValid := rfl, analysed := fun _ => by simp only [succeed, hb, and_self] }

/-- Commands read nothing behind a closed gate: each tests its gate first, and what is then behind it is the same. -/
theorem Indistinguishable.exec_agree (h : Indistinguishable s t) (i : Instr) : OutcomesAgree (exec i s) (exec i t) := by
  cases i with
  | nop => exact h.succeed.next
  | sbclr => exact h.clearSbLen.invalidate.succeed.next
  | keyclr => exact h.clearKeyLen.succeed.next
  | blkclr => exact h.clearBlkLen.succeed.next
  | gfmul a b => exact (h.setResult _).next
  | gfinv a => exact (h.setResult _).next
  | affrnd => exact ((h.withAffm (by rw [matrixAt_congr h.rngScript, h.rngPos])).advanceRng 64).succeed.next
  | afftst =>
    simp only [exec, execAfftst, h.affm]
    exact (h.setResult _).next
  | affapp a =>
    simp only [exec, execAffapp, h.affm]
    exact (h.setResult _).next
  | sbbld =>
    simp only [exec, execSbbld, h.affm]
    exact .ite Iff.rfl (fun _ => (h.replaceSbox _).succeed.next) fun _ => (h.raise _).next
  | sbfind cap => exact (h.searchTrial cap 0).next
  | sbchk => exact h.execSbchk
  | kexp => exact h.execKexp
  | enc => exact h.execEnc
  | dec => exact h.execDec
  | fwht =>
    exact .ite (by rw [h.w]) (fun _ => (h.withW (by rw [h.w])).succeed.next) fun _ => (h.raise _).next
  | analyze => exact h.execAnalyze

/-! ### The port and the step -/

theorem Indistinguishable.hostRead_next (h : Indistinguishable s t) (addr : Addr) :
    Indistinguishable (hostRead addr s) (hostRead addr t) := by
  rw [hostRead_eq, hostRead_eq, h.readWord_eq]
  exact h.withAnswer rfl

theorem byteWrite_agree {data : Word} {f g : Byte → State} (h : ∀ d, Indistinguishable (f d) (g d))
    (hs : Indistinguishable s t) :
    Indistinguishable ((byteWrite data f).elim (answerWith .slverr s) (answerWith .ok))
      ((byteWrite data g).elim (answerWith .slverr t) (answerWith .ok)) := by
  unfold byteWrite
  split
  · exact (h _).withAnswer rfl
  · exact hs.withAnswer rfl

theorem hostStore_eq_elim (l : Loc) (data : Word) (s : State) :
    hostStore l data s = (storeLoc l data s).elim (answerWith .slverr s) (answerWith .ok) := by
  unfold hostStore
  cases storeLoc l data s <;> rfl

theorem Indistinguishable.hostStore_agree (h : Indistinguishable s t) (l : Loc) (data : Word) :
    Indistinguishable (hostStore l data s) (hostStore l data t) := by
  rw [hostStore_eq_elim, hostStore_eq_elim]
  cases l
  case esticky => exact (h.clearSticky data).withAnswer rfl
  case sbPush => exact byteWrite_agree (fun d => h.pushSbox d) h
  case keyPush => exact byteWrite_agree (fun d => h.pushKey d) h
  case blkPush => exact byteWrite_agree (fun d => h.pushBlk d) h
  case affm r =>
    simp only [storeLoc, h.affm]
    exact byteWrite_agree (fun d => h.withAffm rfl) h
  case w i =>
    simp only [storeLoc, h.w]
    exact (h.withW rfl).withAnswer rfl
  all_goals exact h.withAnswer rfl

theorem Indistinguishable.runCommand_agree (h : Indistinguishable s t) (data : Word) :
    OutcomesAgree (runCommand data s) (runCommand data t) := by
  unfold runCommand
  split
  · exact h.exec_agree _
  · exact (h.raise _).next

theorem Indistinguishable.hostWrite_agree (h : Indistinguishable s t) (addr : Addr) (data : Word) :
    OutcomesAgree (hostWrite addr data s) (hostWrite addr data t) := by
  unfold hostWrite
  split
  · exact (h.withAnswer rfl).next
  · exact (h.runCommand_agree data).commandAnswer
  · exact (h.hostStore_agree _ data).next

theorem Indistinguishable.hostMove_agree (h : Indistinguishable s t) (m : HostMove) :
    OutcomesAgree (hostMove m s) (hostMove m t) := by
  cases m with
  | read addr => exact (h.hostRead_next addr).next
  | write addr data => exact h.hostWrite_agree addr data
  | idle => exact (h.withAnswer rfl).next
  | rst => exact h.resetEvent.next

theorem Indistinguishable.searchStep_agree (h : Indistinguishable s t) (f : Search) :
    OutcomesAgree (searchStep f s) (searchStep f t) :=
  (h.searchTrial f.cap f.trials).next.commandAnswer

/-- Both states take the same case of a step, having the same moves to come and the same search. -/
theorem Indistinguishable.step_agree (h : Indistinguishable s t) : OutcomesAgree (step s) (step t) := by
  rcases step_cases s with ⟨rest, hi, e⟩ | ⟨f, rest, hf, hi, e⟩ | ⟨f, hf, h1, h2, e⟩ | ⟨hf, hi, e⟩ |
    ⟨m, rest, hf, hi, -, e⟩ <;> rw [e]
  · rw [step_rst t rest (h.inbox ▸ hi)]
    exact (h.withInbox rest).resetEvent.next
  · rw [step_searching_idle t f rest (h.inbox ▸ hi) (h.search ▸ hf)]
    exact (h.withInbox rest).searchStep_agree f
  · rw [step_searching t f (h.search ▸ hf) (h.inbox ▸ h1) (h.inbox ▸ h2)]
    exact h.searchStep_agree f
  · rw [step_nothing t (h.inbox ▸ hi) (h.search ▸ hf)]
    exact (h.withAnswer rfl).next
  · rw [step_move t m rest (h.inbox ▸ hi) (h.search ▸ hf)]
    exact (h.withInbox rest).hostMove_agree m

end Sys2Proof.Safety

namespace Sys2Proof.Proofs

open Sys2Proof.Safety

/-- Settles O60: the relation is kept by every shared operation, so by every read, store, command and trial, and both
states take the same case of the step. -/
theorem unspecifiedContentsAreUnobservable : Obligations.UnspecifiedContentsAreUnobservable :=
  fun _ _ s' h => h.step_agree s'

end Sys2Proof.Proofs
end

section
/-! The transform of 44_fwht.md as a recursion on halves: the transform of two halves is the sum and the difference of their
transforms. Its length, its sum of squares, its bound and its parity are inductions on that recursion. -/

namespace Sys2Proof.Machine

/-- An entry of an entrywise combination comes from an entry of each list. -/
theorem exists_of_mem_zipWith {f : Int → Int → Int} {l l' : List Int} {y : Int} (h : y ∈ List.zipWith f l l') :
    ∃ a ∈ l, ∃ b ∈ l', y = f a b := by
  rw [← List.map_uncurry_zip_eq_zipWith] at h
  obtain ⟨p, hp, rfl⟩ := List.mem_map.mp h
  obtain ⟨ha, hb⟩ := List.of_mem_zip (a := p.1) (b := p.2) hp
  exact ⟨p.1, ha, p.2, hb, rfl⟩

/-! ### Stages -/

/-- The first `k` stages of R190 on `n` blocks of size `2 ^ k`. -/
def butterflyStages : Nat → Nat → List Int → List Int
  | 0, _, l => l
  | k + 1, n, l => butterflyStage (2 ^ k) n (butterflyStages k (2 * n) l)

theorem fwht_eq_butterflyStages (l : List Int) : fwht l = butterflyStages 8 1 l := rfl

theorem length_butterflyStage (h n : Nat) (l : List Int) (hl : l.length = 2 * h * n) :
    (butterflyStage h n l).length = 2 * h * n := by
  induction n generalizing l with
  | zero => exact hl
  | succ n ih =>
    have hn : l.length = 2 * h * n + 2 * h := hl
    have hd : (l.drop (2 * h)).length = 2 * h * n := by rw [List.length_drop]; omega
    simp only [butterflyStage, List.length_append, List.length_zipWith, List.length_take, List.length_drop, ih _ hd]
    omega

/-- A stage works block by block. -/
theorem butterflyStage_append (h m n : Nat) (l l' : List Int) (hl : l.length = 2 * h * m) :
    butterflyStage h (m + n) (l ++ l') = butterflyStage h m l ++ butterflyStage h n l' := by
  induction m generalizing l with
  | zero =>
    obtain rfl := List.length_eq_zero_iff.mp hl
    simp [butterflyStage]
  | succ m ih =>
    have hm : l.length = 2 * h * m + 2 * h := hl
    have hd : (l.drop (2 * h)).length = 2 * h * m := by rw [List.length_drop]; omega
    have h1 : h ≤ l.length := by omega
    have h2 : h ≤ (l.drop h).length := by rw [List.length_drop]; omega
    rw [Nat.add_right_comm, butterflyStage, butterflyStage, List.take_append_of_le_length h1,
      List.drop_append_of_le_length h1, List.take_append_of_le_length h2,
      List.drop_append_of_le_length (by omega), ih _ hd]
    simp only [List.append_assoc]

theorem length_butterflyStages (k n : Nat) (l : List Int) (hl : l.length = 2 ^ k * n) :
    (butterflyStages k n l).length = 2 ^ k * n := by
  induction k generalizing n with
  | zero => exact hl
  | succ k ih =>
    have e : 2 ^ (k + 1) * n = 2 ^ k * (2 * n) := by ring
    rw [butterflyStages, length_butterflyStage, pow_succ']
    rw [ih _ (by rw [hl, e])]
    ring

theorem butterflyStages_append (k m n : Nat) (l l' : List Int) (hl : l.length = 2 ^ k * m) :
    butterflyStages k (m + n) (l ++ l') = butterflyStages k m l ++ butterflyStages k n l' := by
  induction k generalizing m n with
  | zero => rfl
  | succ k ih =>
    have e : l.length = 2 ^ k * (2 * m) := by rw [hl]; ring
    rw [butterflyStages, Nat.mul_add, ih _ _ e, butterflyStage_append]
    · rfl
    · rw [length_butterflyStages _ _ _ e]; ring

/-! ### The recursion on halves -/

/-- The Walsh-Hadamard transform of `2 ^ k` entries. -/
def wht : Nat → List Int → List Int
  | 0, l => l
  | k + 1, l =>
    let lo := wht k (l.take (2 ^ k))
    let hi := wht k (l.drop (2 ^ k))
    List.zipWith (· + ·) lo hi ++ List.zipWith (· - ·) lo hi

theorem length_take_half {k : Nat} {l : List Int} (hl : l.length = 2 ^ (k + 1)) : (l.take (2 ^ k)).length = 2 ^ k := by
  rw [List.length_take]; omega

theorem length_drop_half {k : Nat} {l : List Int} (hl : l.length = 2 ^ (k + 1)) : (l.drop (2 ^ k)).length = 2 ^ k := by
  rw [List.length_drop]; omega

theorem length_wht (k : Nat) (l : List Int) (hl : l.length = 2 ^ k) : (wht k l).length = 2 ^ k := by
  induction k generalizing l with
  | zero => exact hl
  | succ k ih =>
    simp only [wht, List.length_append, List.length_zipWith, ih _ (length_take_half hl), ih _ (length_drop_half hl)]
    omega

/-- The last stage joins two halves. -/
theorem butterflyStage_halves (h : Nat) (a b : List Int) (ha : a.length = h) (hb : b.length = h) :
    butterflyStage h 1 (a ++ b) = List.zipWith (· + ·) a b ++ List.zipWith (· - ·) a b := by
  have hd : (a ++ b).drop (2 * h) = [] := List.drop_eq_nil_of_le (by rw [List.length_append]; omega)
  rw [butterflyStage, butterflyStage, hd, List.take_left' ha, List.drop_left' ha, List.take_of_length_le hb.le]
  exact List.append_nil _

theorem butterflyStages_one (k : Nat) (l : List Int) (hl : l.length = 2 ^ k) : butterflyStages k 1 l = wht k l := by
  induction k generalizing l with
  | zero => rfl
  | succ k ih =>
    have hlo := length_take_half hl
    have hhi := length_drop_half hl
    calc butterflyStages (k + 1) 1 l
        = butterflyStage (2 ^ k) 1 (butterflyStages k (1 + 1) (l.take (2 ^ k) ++ l.drop (2 ^ k))) := by
          rw [List.take_append_drop]; rfl
      _ = butterflyStage (2 ^ k) 1 (wht k (l.take (2 ^ k)) ++ wht k (l.drop (2 ^ k))) := by
          rw [butterflyStages_append k 1 1 _ _ (by rw [hlo, mul_one]), ih _ hlo, ih _ hhi]
      _ = wht (k + 1) l := butterflyStage_halves _ _ _ (length_wht k _ hlo) (length_wht k _ hhi)

/-- `fwht` of R190 is the recursion on halves. -/
theorem fwht_eq_wht (l : List Int) (hl : l.length = 256) : fwht l = wht 8 l :=
  (fwht_eq_butterflyStages l).trans (butterflyStages_one 8 l hl)

theorem length_fwht (l : List Int) (hl : l.length = 256) : (fwht l).length = 256 := by
  rw [fwht_eq_wht l hl]; exact length_wht 8 l hl

/-! ### The sum of squares -/

theorem sum_squares_sum_add_difference (a b : List Int) (h : a.length = b.length) :
    ((List.zipWith (· + ·) a b).map fun y => y * y).sum + ((List.zipWith (· - ·) a b).map fun y => y * y).sum =
      2 * ((a.map fun y => y * y).sum + (b.map fun y => y * y).sum) := by
  induction a generalizing b with
  | nil =>
    obtain rfl := List.length_eq_zero_iff.mp h.symm
    rfl
  | cons x a ih =>
    cases b with
    | nil => cases h
    | cons y b =>
      have e := ih b (Nat.succ.inj h)
      simp only [List.zipWith_cons_cons, List.map_cons, List.sum_cons]
      linear_combination e

theorem sum_squares_wht (k : Nat) (l : List Int) (hl : l.length = 2 ^ k) :
    ((wht k l).map fun y => y * y).sum = 2 ^ k * (l.map fun y => y * y).sum := by
  induction k generalizing l with
  | zero => simp [wht]
  | succ k ih =>
    have hlo := length_take_half hl
    have hhi := length_drop_half hl
    have e := sum_squares_sum_add_difference (wht k (l.take (2 ^ k))) (wht k (l.drop (2 ^ k)))
      (by rw [length_wht k _ hlo, length_wht k _ hhi])
    rw [ih _ hlo, ih _ hhi] at e
    rw [wht, List.map_append, List.sum_append, e]
    conv_rhs => rw [← List.take_append_drop (2 ^ k) l, List.map_append, List.sum_append]
    ring

/-- The sums of squares agree up to 256 (R192). -/
theorem sum_squares_fwht (l : List Int) (hl : l.length = 256) :
    ((fwht l).map fun y => y * y).sum = 256 * (l.map fun y => y * y).sum := by
  rw [fwht_eq_wht l hl]; exact sum_squares_wht 8 l hl

/-! ### Bounds and parity of the entries -/

/-- An entry of the transform is the sum or the difference of one entry from the transform of each half. -/
theorem mem_wht_succ {k : Nat} {l : List Int} {y : Int} (hy : y ∈ wht (k + 1) l) :
    ∃ a ∈ wht k (l.take (2 ^ k)), ∃ b ∈ wht k (l.drop (2 ^ k)), y = a + b ∨ y = a - b := by
  obtain hy | hy := List.mem_append.mp hy <;> obtain ⟨a, ha, b, hb, e⟩ := exists_of_mem_zipWith hy
  · exact ⟨a, ha, b, hb, .inl e⟩
  · exact ⟨a, ha, b, hb, .inr e⟩

theorem natAbs_le_of_mem_wht (k : Nat) (l : List Int) : ∀ y ∈ wht k l, y.natAbs ≤ (l.map Int.natAbs).sum := by
  induction k generalizing l with
  | zero => exact fun y hy => List.le_sum_of_mem (List.mem_map_of_mem hy)
  | succ k ih =>
    intro y hy
    obtain ⟨a, ha, b, hb, e⟩ := mem_wht_succ hy
    have hlo := ih _ a ha
    have hhi := ih _ b hb
    rw [← List.take_append_drop (2 ^ k) l, List.map_append, List.sum_append]
    omega

/-- No entry of the transform exceeds the sum of the absolute values. -/
theorem natAbs_le_of_mem_fwht {l : List Int} (hl : l.length = 256) {y : Int} (hy : y ∈ fwht l) :
    y.natAbs ≤ (l.map Int.natAbs).sum :=
  natAbs_le_of_mem_wht 8 l y (fwht_eq_wht l hl ▸ hy)

/-- The transform of odd entries: odd before the first stage, even from the first stage on. -/
theorem mod_two_of_mem_wht (k : Nat) (l : List Int) (hl : ∀ x ∈ l, x % 2 = 1) :
    ∀ y ∈ wht k l, y % 2 = if k = 0 then 1 else 0 := by
  induction k generalizing l with
  | zero => exact hl
  | succ k ih =>
    intro y hy
    obtain ⟨a, ha, b, hb, e⟩ := mem_wht_succ hy
    have hlo := ih _ (fun x hx => hl x (List.mem_of_mem_take hx)) a ha
    have hhi := ih _ (fun x hx => hl x (List.mem_of_mem_drop hx)) b hb
    have hab : a % 2 = b % 2 := hlo.trans hhi.symm
    simp only [Nat.add_one_ne_zero, if_false]
    omega

theorem even_of_mem_fwht {l : List Int} (hl : l.length = 256) (ho : ∀ x ∈ l, x % 2 = 1) {y : Int} (hy : y ∈ fwht l) :
    y % 2 = 0 :=
  mod_two_of_mem_wht 8 l ho y (fwht_eq_wht l hl ▸ hy)

end Sys2Proof.Machine
end

section
/-! The ranges of the metrics (10_state.md R40; 45_metrics.md R203 to R212). The linear metrics rest on the sum of squares of
a Walsh spectrum, the difference metrics on the pairing of `x` with `x XOR d`, the transparency order on the bound of the
transform by the sum of the absolute values. -/

namespace Sys2Proof.Machine

/-! ### Largest and least of a list -/

theorem maxNat_mem (l : List Nat) : maxNat l = 0 ∨ maxNat l ∈ l :=
  List.mem_cons.mp (List.max?_eq_some_iff.mp (List.max?_cons' (x := 0) (xs := l))).1

theorem le_maxNat {l : List Nat} {x : Nat} (hx : x ∈ l) : x ≤ maxNat l :=
  (List.max?_eq_some_iff.mp (List.max?_cons' (x := 0) (xs := l))).2 x (List.mem_cons_of_mem 0 hx)

theorem maxNat_le {l : List Nat} {n : Nat} (h : ∀ x ∈ l, x ≤ n) : maxNat l ≤ n :=
  (maxNat_mem l).elim (fun e => e ▸ n.zero_le) (h _)

/-- The largest of even numbers is even, 0 standing for none. -/
theorem even_maxNat {l : List Nat} (h : ∀ x ∈ l, x % 2 = 0) : maxNat l % 2 = 0 :=
  (maxNat_mem l).elim (fun e => by rw [e]) (h _)

theorem minNat_mem {l : List Nat} (hl : l ≠ []) : minNat l ∈ l := by
  obtain ⟨x, xs, rfl⟩ := List.exists_cons_of_ne_nil hl
  exact (List.min?_eq_some_iff.mp (List.min?_cons' (x := x) (xs := xs))).1

theorem minNat_le {l : List Nat} {n : Nat} (hl : l ≠ []) (h : ∀ x ∈ l, x ≤ n) : minNat l ≤ n :=
  h _ (minNat_mem hl)

theorem maxInt_mem {l : List Int} (hl : l ≠ []) : maxInt l ∈ l := by
  obtain ⟨x, xs, rfl⟩ := List.exists_cons_of_ne_nil hl
  exact (List.max?_eq_some_iff.mp (List.max?_cons' (x := x) (xs := xs))).1

theorem le_maxInt {l : List Int} {x : Int} (hx : x ∈ l) : x ≤ maxInt l := by
  obtain ⟨y, ys, rfl⟩ := List.exists_cons_of_ne_nil (List.ne_nil_of_mem hx)
  exact (List.max?_eq_some_iff.mp (List.max?_cons' (x := y) (xs := ys))).2 x hx

/-! ### Bytes -/

theorem popcount_le (v : Byte) : popcount v ≤ 8 := List.countP_le_length

theorem bitMask_ne_zero {i : Nat} (hi : i < 8) : bitMask i ≠ 0 := by
  interval_cases i <;> decide

theorem ne_zero_of_mem_nonzeroBytes {d : Byte} (h : d ∈ nonzeroBytes) : d ≠ 0 := by
  obtain ⟨n, hn, rfl⟩ := List.mem_map.mp h
  rw [List.mem_range'_1] at hn
  intro e
  have h0 : n % 256 = 0 := congrArg BitVec.toNat e
  omega

theorem mem_nonzeroBytes {d : Byte} (h : d ≠ 0) : d ∈ nonzeroBytes := by
  refine List.mem_map.mpr ⟨d.toNat, List.mem_range'_1.mpr ?_, BitVec.ofNat_toNat ..⟩
  have : d.toNat ≠ 0 := fun e => h (BitVec.eq_of_toNat_eq e)
  omega

theorem nodup_allBytes : allBytes.Nodup := by
  refine List.Nodup.map_on (fun a ha b hb e => ?_) List.nodup_range
  have := congrArg BitVec.toNat e
  simp only [BitVec.toNat_ofNat, List.mem_range] at this ha hb
  omega

theorem toFinset_allBytes : allBytes.toFinset = Finset.univ :=
  Finset.eq_univ_iff_forall.mpr fun b => List.mem_toFinset.mpr (mem_allBytes b)

/-- A sum over all bytes as a sum over a finite type. -/
theorem sum_map_allBytes (f : Byte → Nat) : (allBytes.map f).sum = ∑ x : Byte, f x := by
  rw [← List.sum_toFinset f nodup_allBytes, toFinset_allBytes]

/-- A count over all bytes as a sum of zeros and ones. -/
theorem countP_allBytes (p : Byte → Bool) : allBytes.countP p = (allBytes.map fun x => (p x).toNat).sum := by
  induction allBytes with
  | nil => rfl
  | cons x xs ih => cases hx : p x <;> simp [hx, ih, Nat.add_comm]

/-- A sum over all bytes whose terms at `x` and `x XOR d` agree is even: it is a sum over pairs. -/
theorem even_sum_of_xor_invariant {d : Byte} (hd : d ≠ 0) {f : Byte → Nat} (hf : ∀ x, f (x ^^^ d) = f x) :
    (allBytes.map f).sum % 2 = 0 := by
  have hz : ∑ x : Byte, (f x : ZMod 2) = 0 := by
    refine Finset.sum_involution (fun x _ => x ^^^ d) ?_ ?_ ?_ ?_
    · intro x _
      rw [hf, CharTwo.add_self_eq_zero]
    · intro x _ _ e
      exact hd (by simpa using congrArg (x ^^^ ·) e)
    · exact fun _ _ => Finset.mem_univ _
    · exact fun x _ => by simp
  rw [sum_map_allBytes, ← Nat.dvd_iff_mod_eq_zero, ← ZMod.natCast_eq_zero_iff]
  push_cast
  exact hz

theorem even_countP_of_xor_invariant {d : Byte} (hd : d ≠ 0) {p : Byte → Bool} (hp : ∀ x, p (x ^^^ d) = p x) :
    allBytes.countP p % 2 = 0 := by
  rw [countP_allBytes]
  exact even_sum_of_xor_invariant hd fun x => by rw [hp]

/-- The output difference is the same seen from either end of its pair. -/
theorem outDiff_xor (t : Table) (d x : Byte) : outDiff t d (x ^^^ d) = outDiff t d x := by
  simp [outDiff, BitVec.xor_comm]

/-! ### Sums of bounded and of even terms -/

theorem sum_map_le {α : Type} {l : List α} {f : α → Nat} {n : Nat} (h : ∀ x ∈ l, f x ≤ n) :
    (l.map f).sum ≤ l.length * n := by
  simpa using List.sum_le_card_nsmul (l.map f) n (List.forall_mem_map.mpr h)

theorem even_sum_map {α : Type} {l : List α} {f : α → Nat} (h : ∀ x ∈ l, f x % 2 = 0) : (l.map f).sum % 2 = 0 :=
  Nat.mod_eq_zero_of_dvd (List.dvd_sum (List.forall_mem_map.mpr fun x hx => Nat.dvd_of_mod_eq_zero (h x hx)))

/-! ### Walsh spectra -/

/-- Every entry of a truth table is +1 or -1 (R201). -/
theorem mem_truthTable {t : Table} {v : Byte} {x : Int} (hx : x ∈ truthTable t v) : x = 1 ∨ x = -1 := by
  obtain ⟨y, -, rfl⟩ := List.mem_map.mp hx
  cases parity (y &&& v) with
  | false => exact .inl rfl
  | true => exact .inr rfl

@[simp] theorem length_truthTable (t : Table) (v : Byte) : (truthTable t v).length = 256 := by simp [truthTable]

theorem sum_map_truthTable {M : Type} [AddCommMonoid M] (t : Table) (v : Byte) (f : Int → M) (c : M)
    (h1 : f 1 = c) (hm : f (-1) = c) : ((truthTable t v).map f).sum = 256 • c := by
  have hc : ∀ y ∈ (truthTable t v).map f, y = c :=
    List.forall_mem_map.mpr fun x hx => (mem_truthTable hx).elim (fun e => e ▸ h1) fun e => e ▸ hm
  rw [List.sum_eq_card_nsmul _ c hc, List.length_map, length_truthTable]

@[simp] theorem length_walsh (t : Table) (v : Byte) : (walsh t v).length = 256 := length_fwht _ (length_truthTable t v)

/-- The squares of a Walsh spectrum sum to 65536 (R202). -/
theorem sum_squares_walsh (t : Table) (v : Byte) : ((walsh t v).map fun y => y * y).sum = 65536 := by
  rw [walsh, sum_squares_fwht _ (length_truthTable t v), sum_map_truthTable t v _ 1 rfl rfl]
  rfl

theorem natAbs_le_of_mem_walsh {t : Table} {v : Byte} {y : Int} (hy : y ∈ walsh t v) : y.natAbs ≤ 256 := by
  have h := natAbs_le_of_mem_fwht (length_truthTable t v) hy
  rwa [sum_map_truthTable t v _ 1 rfl rfl] at h

theorem even_of_mem_walsh {t : Table} {v : Byte} {y : Int} (hy : y ∈ walsh t v) : y % 2 = 0 := by
  refine even_of_mem_fwht (length_truthTable t v) (fun x hx => ?_) hy
  obtain rfl | rfl := mem_truthTable hx <;> rfl

/-- Some entry of a Walsh spectrum reaches 16: were all below, the squares would sum to at most 256 * 225. -/
theorem sixteen_le_max_walsh (t : Table) (v : Byte) : 16 ≤ maxNat ((walsh t v).map Int.natAbs) := by
  by_contra hlt
  have hsq : ∀ z ∈ (walsh t v).map fun y => y * y, z ≤ 225 := by
    refine List.forall_mem_map.mpr fun y hy => ?_
    have hy15 : y.natAbs ≤ 15 := (le_maxNat (List.mem_map_of_mem hy)).trans (by omega)
    have hlo : -15 ≤ y := by omega
    have hhi : y ≤ 15 := by omega
    nlinarith
  have h := List.sum_le_card_nsmul _ _ hsq
  rw [sum_squares_walsh, List.length_map, length_walsh] at h
  exact absurd h (by decide)

theorem nlOf_le (t : Table) (v : Byte) : nlOf t v ≤ 120 := by
  have h := sixteen_le_max_walsh t v
  unfold nlOf
  omega

/-! ### The ranges -/

theorem metricNl_le (t : Table) : metricNl t ≤ 120 :=
  minNat_le (List.map_eq_nil_iff.not.mpr (by decide)) (List.forall_mem_map.mpr fun _ _ => nlOf_le t _)

theorem metricBicNl_le (t : Table) : metricBicNl t ≤ 120 :=
  minNat_le (List.map_eq_nil_iff.not.mpr (by decide)) (List.forall_mem_map.mpr fun _ _ => nlOf_le t _)

theorem metricSac_le (t : Table) : metricSac t ≤ 16384 := by
  refine (sum_map_le (n := 2048) fun i _ => ?_).trans (by simp)
  exact (sum_map_le (n := 8) fun _ _ => popcount_le _).trans (by simp)

theorem even_metricSac (t : Table) : metricSac t % 2 = 0 :=
  even_sum_map fun _ hi => even_sum_of_xor_invariant (bitMask_ne_zero (List.mem_range.mp hi)) fun x => by rw [outDiff_xor]

theorem metricBicSac_le (t : Table) : metricBicSac t ≤ 57344 := by
  refine (sum_map_le (n := 2048) fun p _ => ?_).trans (Nat.mul_le_mul_right 2048 (by decide : bitPairs.length ≤ 28))
  exact (sum_map_le (n := 256) fun _ _ => List.countP_le_length.trans length_allBytes.le).trans (by simp)

theorem even_metricBicSac (t : Table) : metricBicSac t % 2 = 0 :=
  even_sum_map fun _ _ => even_sum_map fun _ hi =>
    even_countP_of_xor_invariant (bitMask_ne_zero (List.mem_range.mp hi)) fun x => by rw [outDiff_xor]

theorem metricLap_le (t : Table) : metricLap t ≤ 256 :=
  maxNat_le <| List.forall_mem_map.mpr fun _ _ => maxNat_le <| List.forall_mem_map.mpr fun _ hy =>
    natAbs_le_of_mem_walsh (List.mem_of_mem_drop hy)

theorem even_metricLap (t : Table) : metricLap t % 2 = 0 :=
  even_maxNat <| List.forall_mem_map.mpr fun _ _ => even_maxNat <| List.forall_mem_map.mpr fun y hy => by
    have h := even_of_mem_walsh (List.mem_of_mem_drop hy)
    omega

/-- A bucket of the difference table counts a set of pairs (R208). -/
theorem even_of_mem_ddtRow {t : Table} {dx : Byte} (hd : dx ≠ 0) {n : Nat} (hn : n ∈ ddtRow t dx) : n % 2 = 0 := by
  obtain ⟨dy, -, rfl⟩ := List.mem_map.mp hn
  rw [List.count, List.countP_map]
  exact even_countP_of_xor_invariant hd fun x => by simp only [Function.comp, outDiff_xor]

theorem le_of_mem_ddtRow {t : Table} {dx : Byte} {n : Nat} (hn : n ∈ ddtRow t dx) : n ≤ 256 := by
  obtain ⟨dy, -, rfl⟩ := List.mem_map.mp hn
  exact List.count_le_length.trans (by simp)

theorem metricDu_le (t : Table) : metricDu t ≤ 256 :=
  maxNat_le <| List.forall_mem_map.mpr fun _ _ => maxNat_le fun _ hn => le_of_mem_ddtRow hn

theorem even_metricDu (t : Table) : metricDu t % 2 = 0 :=
  even_maxNat <| List.forall_mem_map.mpr fun _ hd => even_maxNat fun _ hn =>
    even_of_mem_ddtRow (ne_zero_of_mem_nonzeroBytes hd) hn

/-- Any difference falls into some bucket, and a bucket that is not empty holds a pair. -/
theorem two_le_metricDu (t : Table) : 2 ≤ metricDu t := by
  have hd : (1 : Byte) ≠ 0 := by decide
  have hmem : (allBytes.map (outDiff t 1)).count (outDiff t 1 0) ∈ ddtRow t 1 := List.mem_map_of_mem (mem_allBytes _)
  have hpos : 0 < (allBytes.map (outDiff t 1)).count (outDiff t 1 0) :=
    List.count_pos_iff.mpr (List.mem_map_of_mem (mem_allBytes 0))
  have heven := even_of_mem_ddtRow hd hmem
  calc 2 ≤ (allBytes.map (outDiff t 1)).count (outDiff t 1 0) := by omega
    _ ≤ maxNat (ddtRow t 1) := le_maxNat hmem
    _ ≤ metricDu t := le_maxNat (List.mem_map_of_mem (f := fun dx => maxNat (ddtRow t dx)) (mem_nonzeroBytes hd))

theorem metricAd_le (t : Table) : metricAd t ≤ 8 := by
  refine maxNat_le <| List.forall_mem_map.mpr fun _ _ => maxNat_le <| List.forall_mem_map.mpr fun c _ => ?_
  cases c.1 with
  | false => exact Nat.zero_le 8
  | true => exact popcount_le c.2

theorem metricCi_le (t : Table) : metricCi t ≤ 8 :=
  minNat_le (List.map_eq_nil_iff.not.mpr (by decide)) <| List.forall_mem_map.mpr fun _ _ => maxNat_le fun _ hk =>
    Nat.lt_succ_iff.mp (List.mem_range.mp (List.mem_of_mem_filter hk))

/-! ### The transparency order -/

theorem natAbs_sum_squares (l : List Int) :
    (((l.map fun y => y * y).map Int.natAbs).sum : Int) = (l.map fun y => y * y).sum := by
  induction l with
  | nil => rfl
  | cons x xs ih =>
    simp only [List.map_cons, List.sum_cons, Nat.cast_add, ih, Int.natCast_natAbs, abs_mul_self]

/-- An autocorrelation lies in -256 .. 256 (R212): its spectrum, the squares, sums to 65536. -/
theorem natAbs_le_of_mem_autocorrelation {t : Table} {beta : Byte} {y : Int} (hy : y ∈ autocorrelation t beta) :
    y.natAbs ≤ 256 := by
  obtain ⟨x, hx, rfl⟩ := List.mem_map.mp hy
  have hb := natAbs_le_of_mem_fwht (by simp) hx
  have hs := natAbs_sum_squares (walsh t beta)
  rw [sum_squares_walsh] at hs
  omega

theorem length_autocorrelation (t : Table) (beta : Byte) : (autocorrelation t beta).length = 256 := by
  rw [autocorrelation, List.length_map, length_fwht _ (by simp)]

theorem sum_autocorrelation_le (t : Table) (beta : Byte) :
    (((autocorrelation t beta).drop 1).map Int.natAbs).sum ≤ 65280 := by
  have h := sum_map_le (l := (autocorrelation t beta).drop 1) (f := Int.natAbs) (n := 256)
    fun y hy => natAbs_le_of_mem_autocorrelation (List.mem_of_mem_drop hy)
  rwa [List.length_drop, length_autocorrelation] at h

theorem transparency_le (t : Table) (beta : Byte) : transparency t beta ≤ 522240 := by
  have hp := popcount_le beta
  unfold transparency Config.toDen
  omega

theorem metricTo_le (t : Table) : metricTo t ≤ 522240 := by
  obtain ⟨beta, -, e⟩ := List.mem_map.mp (maxInt_mem (l := nonzeroBytes.map (transparency t)) (by simp [nonzeroBytes]))
  rw [metricTo, ← e]
  exact transparency_le t beta

/-- The mask 255 alone reaches the lower end: its weight term is 8 * 65280. -/
theorem le_metricTo (t : Table) : 456960 ≤ metricTo t := by
  have hp : popcount 255 = 8 := by decide
  have hs := sum_autocorrelation_le t 255
  have hv : 456960 ≤ transparency t 255 := by
    unfold transparency Config.toDen
    rw [hp]
    omega
  exact hv.trans (le_maxInt (List.mem_map_of_mem (mem_nonzeroBytes (by decide))))

end Sys2Proof.Machine

namespace Sys2Proof.Proofs

open Sys2Proof.Machine

/-- Settles O55, metric by metric. -/
theorem metricsStayInTheirRanges : Obligations.MetricsStayInTheirRanges := fun t =>
  ⟨metricNl_le t, metricBicNl_le t, metricSac_le t, even_metricSac t, metricBicSac_le t, even_metricBicSac t,
    metricLap_le t, even_metricLap t, two_le_metricDu t, metricDu_le t, even_metricDu t, metricAd_le t, metricCi_le t,
    le_metricTo t, metricTo_le t⟩

end Sys2Proof.Proofs
end

section
/-! Every step keeps the invariant: it depends on the codes, the working S-box, the engine, the result registers and the
search alone, and each effect that writes one of these is shown to keep its clause. -/

namespace Sys2Proof.Safety

open Sys2Proof.Machine

variable {s t : State}

/-- The registers the invariant does not speak of may change. -/
theorem Inv.frame (h : Inv s)
    (ht : t = { s with
      res := t.res, resValid := t.resValid, affm := t.affm, key := t.key, keyLen := t.keyLen, blk := t.blk
      blkLen := t.blkLen, out := t.out, outValid := t.outValid, w := t.w, rngPos := t.rngPos, rngScript := t.rngScript
      inbox := t.inbox, answer := t.answer }) : Inv t := by
  rw [ht]
  exact ⟨h.codes, h.engine, h.checked, h.analysed, h.search⟩

/-! ### Codes -/

protected theorem Inv.succeed (h : Inv s) : Inv (succeed s) :=
  { h with codes := ⟨Nat.zero_le 8, h.codes.2⟩ }

/-- An error writes a code 1 to 8 and sets its sticky bit (R260, R262). -/
protected theorem Inv.raise (h : Inv s) (e : ErrCode) : Inv (raise e s) := by
  obtain ⟨h1, h8⟩ := code_range e
  refine { h with codes := ⟨?_, fun n hn => ?_⟩ }
  · rw [raise_err, BitVec.toNat_ofNat]
    omega
  · rw [raise_esticky, BitVec.getLsbD_or, Bool.or_eq_true] at hn
    obtain hn | hn := hn
    · exact h.codes.2 n hn
    · obtain ⟨-, rfl⟩ : e.code < 16 ∧ e.code = n := by simpa [BitVec.getLsbD_twoPow] using hn
      exact ⟨h1, h8⟩

protected theorem Inv.clearSticky (h : Inv s) (data : Word) : Inv (clearSticky data s) := by
  refine { h with codes := ⟨h.codes.1, fun n hn => h.codes.2 n ?_⟩ }
  rw [clearSticky_esticky, BitVec.getLsbD_and, Bool.and_eq_true] at hn
  exact hn.1

/-! ### The working S-box, the search and the engine -/

/-- With both result flags cleared there is nothing left to describe the S-box (R42). -/
theorem Inv.withSbox (h : Inv s) (b : Table) (n : Fin 258) :
    Inv { s with sbox := b, sbLen := n, chkValid := false, anaValid := false } :=
  { h with checked := nofun, analysed := nofun }

theorem Inv.withSearch (h : Inv s) {f : Option Search}
    (hf : ∀ g, f = some g → 1 ≤ g.trials ∧ (g.cap = 0 ∨ g.trials < g.cap.toNat)) : Inv { s with search := f } :=
  { h with search := hf }

/-- `KEXP` builds every part of the engine from the same S-box and key (R152). -/
theorem Inv.withEngine (h : Inv s) :
    Inv { s with
      esbox := s.sbox, engBij := isBijective s.sbox, einv := invSbox s.sbox, rk := expandKey s.key s.sbox
      engValid := true } :=
  { h with engine := ⟨nofun, fun _ => ⟨rfl, rfl, s.key, rfl⟩⟩ }

/-! ### Results -/

theorem bitCount_le (b : Table) (i : Nat) : bitCount b i ≤ 256 :=
  List.countP_le_length.trans (Vector.length_toList).le

/-- No bit count is truncated by its 9-bit register (R40). -/
theorem Inv.withCheck (h : Inv s) (hl : s.sbLen = 256) :
    Inv { s with
      isBij := isBijective s.sbox, isBal := isBalanced s.sbox
      bitcnt := tabulate fun i => BitVec.ofNat 9 (bitCount s.sbox i.val), chkValid := true } := by
  refine { h with checked := fun _ => ⟨hl, rfl, rfl, fun i => ?_⟩ }
  have hb := bitCount_le s.sbox i.val
  rw [getElem_fin_tabulate, BitVec.toNat_ofNat]
  exact Nat.mod_eq_of_lt (by omega)

/-- The signed register of 32 bits holds the transparency order (R40). -/
theorem toInt_ofInt_metricTo (b : Table) : (BitVec.ofInt 32 (metricTo b)).toInt = metricTo b := by
  have hlo := le_metricTo b
  have hhi := metricTo_le b
  exact BitVec.toInt_ofInt_eq_self (by decide) (by omega) (by omega)

/-- No metric is truncated by its register (R40): each range fits its width. -/
theorem Inv.withAnalysis (h : Inv s) (hl : s.sbLen = 256) :
    Inv { s with
      nl := BitVec.ofNat 8 (metricNl s.sbox), sacNum := BitVec.ofNat 15 (metricSac s.sbox)
      bicNl := BitVec.ofNat 8 (metricBicNl s.sbox), bicSacNum := BitVec.ofNat 16 (metricBicSac s.sbox)
      lapNum := BitVec.ofNat 9 (metricLap s.sbox), du := BitVec.ofNat 9 (metricDu s.sbox)
      dapNum := BitVec.ofNat 9 (metricDu s.sbox), ad := BitVec.ofNat 4 (metricAd s.sbox)
      ci := BitVec.ofNat 4 (metricCi s.sbox), toNum := BitVec.ofInt 32 (metricTo s.sbox), anaValid := true } := by
  have toNat_ofNat_of_le {w n m : Nat} (hn : n ≤ m) (hm : m < 2 ^ w) : (BitVec.ofNat w n).toNat = n := by
    rw [BitVec.toNat_ofNat]
    exact Nat.mod_eq_of_lt (hn.trans_lt hm)
  exact { h with analysed := fun _ => ⟨hl,
    toNat_ofNat_of_le (metricNl_le s.sbox) (by decide),
    toNat_ofNat_of_le (metricSac_le s.sbox) (by decide),
    toNat_ofNat_of_le (metricBicNl_le s.sbox) (by decide),
    toNat_ofNat_of_le (metricBicSac_le s.sbox) (by decide),
    toNat_ofNat_of_le (metricLap_le s.sbox) (by decide),
    rfl,
    toNat_ofNat_of_le (metricDu_le s.sbox) (by decide),
    toNat_ofNat_of_le (metricAd_le s.sbox) (by decide),
    toNat_ofNat_of_le (metricCi_le s.sbox) (by decide),
    toInt_ofInt_metricTo s.sbox⟩ }

/-! ### The effects -/

/-- A trial counts itself, and goes on only within the cap (R128). -/
theorem Inv.of_trialEffect {cap : Cap} {n : Nat} (h : Inv s) (ht : TrialEffect cap n s t) : Inv t := by
  have ended := h.withSearch (f := none) nofun
  cases ht with
  | commit m => exact ((ended.withSbox (buildSbox m) 256).frame rfl).succeed
  | giveUp => exact (ended.frame rfl).raise _
  | goOn hc =>
    refine (h.withSearch (f := some ⟨cap, n + 1⟩) ?_).frame rfl
    rintro g ⟨rfl⟩
    exact ⟨Nat.le_add_left 1 n, hc⟩

theorem Inv.of_commandEffect {i : Instr} (h : Inv s) (ht : CommandEffect s i t) : Inv t := by
  cases ht with
  | fails i e => exact h.raise e
  | nop => exact h.succeed
  | sbclr => exact (h.withSbox s.sbox 0).succeed
  | sbbld b => exact (h.withSbox b 256).succeed
  | sbfind cap t ht => exact h.of_trialEffect ht
  | sbchk hl => exact (h.withCheck hl).succeed
  | kexp => exact h.withEngine.succeed
  | analyze hl => exact (h.withAnalysis hl).succeed
  | keyclr | blkclr | delivers | affrnd | writesOut | fwht => exact h.succeed.frame rfl

theorem Inv.of_storeEffect (h : Inv s) (ht : StoreEffect s t) : Inv t := by
  cases ht with
  | esticky data => exact h.clearSticky data
  | sbPush d => obtain ⟨b, n, e⟩ := pushSbox_eq d s; rw [e]; exact h.withSbox b n
  | keyPush d => obtain ⟨b, n, e⟩ := pushKey_eq d s; rw [e]; exact h.frame rfl
  | blkPush d => obtain ⟨b, n, e⟩ := pushBlk_eq d s; rw [e]; exact h.frame rfl
  | affm m => exact h.frame rfl
  | w w => exact h.frame rfl

theorem Inv.of_stepEffect (h : Inv s) (ht : StepEffect s t) : Inv t := by
  have withInbox (moves : List HostMove) : Inv { s with inbox := moves } := h.frame rfl
  cases ht with
  | reset rest hi => exact inv_reset.frame rfl
  | quiet moves a => exact h.frame rfl
  | store moves a u hu => exact ((withInbox moves).of_storeEffect hu).frame rfl
  | illegal moves a => exact (h.raise .illegalCommand).frame rfl
  | command i rest a u hi hu => exact ((withInbox rest).of_commandEffect hu).frame rfl
  | trial f moves a u hf hu => exact ((withInbox moves).of_trialEffect hu).frame rfl

end Sys2Proof.Safety

namespace Sys2Proof.Proofs

open Sys2Proof.Machine

/-- Settles O59: every effect of a step keeps every clause of the invariant. -/
theorem everyStepKeepsTheInvariant : Obligations.EveryStepKeepsTheInvariant :=
  fun _ _ h hs => h.of_stepEffect (stepEffect_of_step hs)

end Sys2Proof.Proofs
end

section
/-! The address map and the host port of 20_memory.md: which addresses are mapped (R70, R76), what a read answers (R62),
which writes are accepted (R63, R64), and the step of a transaction. -/

namespace Sys2Proof.Machine

/-! ### The address map -/

/-- A test that fails, in a lookup written as a chain of tests. -/
theorem Loc.ite_eq_of_not {c : Prop} [Decidable c] {x y z : Option Loc} (hc : ¬c) (hy : y = z) :
    (if c then x else y) = z :=
  (if_neg hc).trans hy

theorem byte_ofNat_eq (x : Byte) {m : Nat} (h : m = x.toNat) : BitVec.ofNat 8 m = x := by
  rw [h, BitVec.ofNat_toNat, BitVec.setWidth_eq]

theorem fin_ofNat_eq {n m : Nat} [NeZero n] (i : Fin n) (h : m = i.val) : Fin.ofNat n m = i := by
  rw [h, Fin.ofNat_val_eq_self]

/-- The location at a location's address is that location (R70): the tests before its own fail, its own succeeds, and the
index comes back. -/
@[simp] theorem Loc.ofAddr_addr (l : Loc) : Loc.ofAddr l.addr = some l := by
  unfold Loc.ofAddr
  extract_lets n
  have hn : n = l.addr.toNat := rfl
  clear_value n
  cases l
  all_goals
    simp only [Loc.addr, BitVec.toNat_ofNat, BitVec.ofNat_eq_ofNat] at hn
    repeat refine Loc.ite_eq_of_not (by omega) ?_
    rw [if_pos (by omega)]
  case affm i | bitcnt i | out i | key i => rw [fin_ofNat_eq i (by omega)]
  case sbox x | invtab x | w x | esbox x | einv x => rw [byte_ofNat_eq x (by omega)]
  case rk i j => rw [fin_ofNat_eq i (by omega), fin_ofNat_eq j (by omega)]

/-- The word addresses that name no location: the six ranges of R76. -/
def UnmappedAddress (n : Nat) : Prop :=
  (0x00C ≤ n ∧ n ≤ 0x00F) ∨ (0x018 ≤ n ∧ n ≤ 0x01F) ∨ (0x029 ≤ n ∧ n ≤ 0x02F) ∨ (0x03A ≤ n ∧ n ≤ 0x03F) ∨
    (0x060 ≤ n ∧ n ≤ 0x0FF) ∨ 0x6B0 ≤ n

theorem Loc.ite_some_eq_none_iff {c : Prop} [Decidable c] {l : Loc} {y : Option Loc} :
    (if c then some l else y) = none ↔ ¬c ∧ y = none := by
  split <;> simp [*]

theorem Loc.ite_none_eq_none_iff {c : Prop} [Decidable c] {y : Option Loc} :
    (if c then none else y) = none ↔ c ∨ y = none := by
  split <;> simp [*]

/-- An address names no location exactly when it is in one of the unmapped ranges (R76). -/
theorem Loc.ofAddr_eq_none_iff {a : Addr} : Loc.ofAddr a = none ↔ UnmappedAddress a.toNat := by
  unfold Loc.ofAddr
  extract_lets n
  have hn : n < 4096 := a.isLt
  change _ ↔ UnmappedAddress n
  clear_value n
  simp only [Loc.ite_some_eq_none_iff, Loc.ite_none_eq_none_iff, UnmappedAddress, and_true]
  omega

/-! ### Reads -/

/-- A read of a location's address is a read of the location (R62). -/
@[simp] theorem readWord_addr (l : Loc) (s : State) : readWord l.addr s = readLoc l s := by
  rw [readWord, Loc.ofAddr_addr, Option.bind_some]

theorem readWord_of_unmapped {a : Addr} (h : UnmappedAddress a.toNat) (s : State) : readWord a s = none := by
  rw [readWord, Loc.ofAddr_eq_none_iff.mpr h, Option.bind_none]

/-- A read behind a gate, whose condition may be written as a proposition. -/
theorem readWord_of_gated (l : Loc) {s : State} {gate : Bool} {v : Word} {c : Prop} [Decidable c]
    (hl : readLoc l s = gated gate v) (hc : gate = true ↔ c) : readWord l.addr s = if c then some v else none := by
  rw [readWord_addr, hl]
  cases gate with
  | false => exact (if_neg fun h => nomatch hc.mpr h).symm
  | true => exact (if_pos (hc.mp rfl)).symm

/-- `CHKFLAGS` as a number (R40): `IS_BIJ + 2 * IS_BAL`. -/
theorem chkFlagsWord_eq_ofNat (s : State) : chkFlagsWord s = BitVec.ofNat 32 (s.isBij.toNat + 2 * s.isBal.toNat) := by
  unfold chkFlagsWord
  cases s.isBij <;> cases s.isBal <;> rfl

/-- `INVTAB[a]` is the inverse of `a` (40_gf256.md R113). -/
@[simp] theorem atByte_invtab (a : Byte) : atByte invtab a = inverse a := by
  simp [invtab]

/-! ### The step of a transaction -/

section
variable {s : State} {addr : Addr} {data : Word} {rest : List HostMove}

/-- A read is done on the state without the move (R62). -/
theorem step_read (hs : s.search = none) (hi : s.inbox = .read addr :: rest) :
    step s = .next (hostRead addr { s with inbox := rest }) :=
  step_move s _ rest hi hs

/-- A write to an address without a location is refused (R64). -/
theorem step_write_unmapped (hs : s.search = none) (hi : s.inbox = .write addr data :: rest)
    (hl : Loc.ofAddr addr = none) : step s = .next { s with inbox := rest, answer := some .slverr } := by
  rw [step_move s _ rest hi hs, hostMove, hostWrite, hl]
  rfl

/-- A write to `CMD` runs the word on the state without the move (R63, R65). -/
theorem step_write_cmd (hs : s.search = none) (hi : s.inbox = .write Loc.cmd.addr data :: rest) :
    step s = commandAnswer (runCommand data { s with inbox := rest }) := by
  rw [step_move s _ rest hi hs, hostMove, hostWrite_cmd]

/-- A write to a location other than `CMD` is a store (R63). -/
theorem step_write_store {l : Loc} (hs : s.search = none) (hi : s.inbox = .write l.addr data :: rest)
    (hl : l ≠ .cmd) : step s = .next (hostStore l data { s with inbox := rest }) := by
  rw [step_move s _ rest hi hs, hostMove, hostWrite, Loc.ofAddr_addr]
  cases l
  case cmd => exact absurd rfl hl
  all_goals rfl

/-- A store that is accepted takes its effect and answers `OK`. -/
theorem step_write_accepted {l : Loc} {t : State} (hs : s.search = none) (hi : s.inbox = .write l.addr data :: rest)
    (ht : storeLoc l data { s with inbox := rest } = some t) : step s = .next { t with answer := some .ok } := by
  have hl : l ≠ .cmd := by rintro rfl; cases ht
  rw [step_write_store hs hi hl, hostStore, ht]
  rfl

/-- A store that is refused changes the answer alone (R64). -/
theorem step_write_refused {l : Loc} (hs : s.search = none) (hi : s.inbox = .write l.addr data :: rest)
    (hl : l ≠ .cmd) (ht : storeLoc l data { s with inbox := rest } = none) :
    step s = .next { s with inbox := rest, answer := some .slverr } := by
  rw [step_write_store hs hi hl, hostStore, ht]
  rfl

end

/-! ### Which writes are accepted -/

/-- A write that the port accepts, to an address other than that of `CMD` (R63, R64): `ESTICKY`, `W`, or a byte to a push port
or to `AFFM`. -/
def AcceptsWrite (addr : Addr) (d : Word) : Prop :=
  addr = 0x003#12 ∨ (0x300 ≤ addr.toNat ∧ addr.toNat ≤ 0x3FF) ∨
    (d.extractLsb' 8 24 = 0 ∧ ((0x008 ≤ addr.toNat ∧ addr.toNat ≤ 0x00A) ∨ (0x010 ≤ addr.toNat ∧ addr.toNat ≤ 0x017)))

theorem byteWrite_of_byte {d : Word} (h : d.extractLsb' 8 24 = 0) (f : Byte → State) :
    byteWrite d f = some (f (d.extractLsb' 0 8)) :=
  if_pos h

theorem byteWrite_of_not_byte {d : Word} (h : d.extractLsb' 8 24 ≠ 0) (f : Byte → State) : byteWrite d f = none :=
  if_neg h

/-- An unmapped address is none of those that accept a write. -/
theorem not_acceptsWrite_of_unmapped {addr : Addr} (h : UnmappedAddress addr.toNat) (d : Word) :
    ¬AcceptsWrite addr d := by
  rw [AcceptsWrite, ← BitVec.toNat_inj, BitVec.toNat_ofNat]
  unfold UnmappedAddress at h
  omega

/-- A write to a mapped address other than that of `CMD` is accepted when its store has an effect. -/
theorem storeLoc_isSome_iff {l : Loc} (hl : l ≠ .cmd) (d : Word) (s : State) :
    (storeLoc l d s).isSome ↔ AcceptsWrite l.addr d := by
  rw [AcceptsWrite, ← BitVec.toNat_inj]
  cases l
  case cmd => exact absurd rfl hl
  case esticky => exact iff_of_true rfl (.inl rfl)
  case w i =>
    refine iff_of_true rfl (.inr (.inl ?_))
    simp only [Loc.addr, BitVec.toNat_ofNat]
    omega
  case sbPush | keyPush | blkPush | affm =>
    by_cases hd : d.extractLsb' 8 24 = 0
    · rw [storeLoc, byteWrite_of_byte hd]
      refine iff_of_true rfl (.inr (.inr ⟨hd, ?_⟩))
      simp only [Loc.addr, BitVec.toNat_ofNat, BitVec.ofNat_eq_ofNat]
      omega
    · rw [storeLoc, byteWrite_of_not_byte hd]
      refine iff_of_false nofun ?_
      rw [eq_false hd, false_and, or_false]
      simp only [Loc.addr, BitVec.toNat_ofNat, BitVec.ofNat_eq_ofNat]
      omega
  all_goals
    refine iff_of_false nofun ?_
    simp only [Loc.addr, BitVec.toNat_ofNat, BitVec.ofNat_eq_ofNat]
    omega

theorem extractLsb'_high_setWidth (d : Byte) : (d.setWidth 32).extractLsb' 8 24 = 0 := by
  apply BitVec.eq_of_getLsbD_eq
  intro i hi
  simp

theorem extractLsb'_low_setWidth (d : Byte) : (d.setWidth 32).extractLsb' 0 8 = d := by
  rw [← BitVec.setWidth_eq_extractLsb' (by decide), BitVec.setWidth_setWidth_of_le d (by decide), BitVec.setWidth_eq]

/-- A byte of the host, zero-extended, is a byte write (R64 case 4). -/
theorem byteWrite_setWidth (d : Byte) (f : Byte → State) : byteWrite (d.setWidth 32) f = some (f d) := by
  rw [byteWrite_of_byte (extractLsb'_high_setWidth d), extractLsb'_low_setWidth]

theorem storeLoc_affm_of_byte {d : Word} (h : d.extractLsb' 8 24 = 0) (r : Fin 8) (s : State) :
    storeLoc (.affm r) d s = some { s with affm := s.affm.set r (d.extractLsb' 0 8) } :=
  byteWrite_of_byte h fun b => { s with affm := s.affm.set r b }

section
variable {s : State} {d : Byte} {rest : List HostMove}

/-- A byte written to `SBPUSH` is pushed (R67). -/
theorem step_sbPush (hs : s.search = none) (hi : s.inbox = .write Loc.sbPush.addr (d.setWidth 32) :: rest) :
    step s = .next { pushSbox d { s with inbox := rest } with answer := some .ok } :=
  step_write_accepted hs hi (byteWrite_setWidth d fun b => pushSbox b { s with inbox := rest })

/-- A byte written to `KEYPUSH` is pushed (R68). -/
theorem step_keyPush (hs : s.search = none) (hi : s.inbox = .write Loc.keyPush.addr (d.setWidth 32) :: rest) :
    step s = .next { pushKey d { s with inbox := rest } with answer := some .ok } :=
  step_write_accepted hs hi (byteWrite_setWidth d fun b => pushKey b { s with inbox := rest })

/-- A byte written to `BLKPUSH` is pushed (R69). -/
theorem step_blkPush (hs : s.search = none) (hi : s.inbox = .write Loc.blkPush.addr (d.setWidth 32) :: rest) :
    step s = .next { pushBlk d { s with inbox := rest } with answer := some .ok } :=
  step_write_accepted hs hi (byteWrite_setWidth d fun b => pushBlk b { s with inbox := rest })

end

/-! ### The command that waits -/

theorem TrialEffect.inbox_eq {cap : Cap} {n : Nat} {s t : State} (h : TrialEffect cap n s t) : t.inbox = s.inbox := by
  cases h <;> rfl

/-- With no search running, `withFetchWord` puts the write of the word in front of the host's moves. -/
theorem withFetchWord_eq {s : State} (hs : s.search = none) (w : Word) :
    s.withFetchWord 32 w.toNat = { s with inbox := .write 0x001#12 w :: s.inbox } := by
  have hw : BitVec.ofNat 32 (w.toNat % 2 ^ 32) = w := by
    rw [Nat.mod_eq_of_lt w.isLt, BitVec.ofNat_toNat, BitVec.setWidth_eq]
  rw [State.withFetchWord, hw, placeCommand, ← hs]
  rfl

end Sys2Proof.Machine

namespace Sys2Proof.Proofs

open Sys2Proof.Machine Sys2Proof.Safety

/-- Settles O5: the map and its inverse, location by location and test by test. -/
theorem addressesNameOneLocation : Obligations.AddressesNameOneLocation :=
  ⟨Loc.ofAddr_addr, fun _ => Loc.addr_of_ofAddr⟩

/-- Settles O6: the step is the write to `CMD`, and the word decodes to `i`. -/
theorem stepRunsTheDecodedCommand : Obligations.StepRunsTheDecodedCommand := by
  intro s t w i rest hs hw ht
  have hstep : step { s with inbox := .write 0x001#12 w :: rest } =
      .next { t with answer := if t.search = none then some .ok else none } := by
    rw [step_write_cmd (s := { s with inbox := .write 0x001#12 w :: rest }) hs rfl, runCommand, hw]
    exact congrArg commandAnswer ht
  refine ⟨hstep, fun hi => ?_⟩
  rw [withFetchWord_eq hs, hi, hstep]

/-- Settles O9: a read changes the answer alone, and its value is one of the state without the move. -/
theorem readsChangeNothing : Obligations.ReadsChangeNothing := by
  intro s addr rest hs hi
  have answered := hostRead_eq addr { s with inbox := rest }
  exact (step_read hs hi).trans (congrArg Host.Outcome.next answered)

/-- Settles O10: each address is a location's, and the unmapped ones are none's. -/
theorem readsFollowTheAddressMap : Obligations.ReadsFollowTheAddressMap := by
  intro s
  have gated_read (l : Loc) {gate : Bool} {v : Word} (hl : readLoc l s = gated gate v) :
      readWord l.addr s = if gate then some v else none :=
    readWord_of_gated l hl Iff.rfl
  refine ⟨readWord_addr .id s, readWord_addr .cmd s, readWord_addr .status s, readWord_addr .esticky s,
    gated_read .res rfl, readWord_addr .sbLen s, readWord_addr .keyLen s, readWord_addr .blkLen s,
    readWord_addr .sbPush s, readWord_addr .keyPush s, readWord_addr .blkPush s, readWord_addr .affc s,
    fun r => readWord_addr (.affm r) s, fun i => gated_read (.bitcnt i) rfl, ?chkFlags,
    gated_read .nl rfl, gated_read .sacNum rfl, gated_read .bicNl rfl, gated_read .bicSacNum rfl,
    gated_read .lapNum rfl, gated_read .dapNum rfl, gated_read .du rfl, gated_read .ad rfl, gated_read .toNum rfl,
    gated_read .ci rfl, fun i => gated_read (.out i) rfl, fun i => readWord_of_gated (.key i) rfl beq_iff_eq,
    fun x => readWord_of_gated (.sbox (.ofFin x)) rfl beq_iff_eq, fun a => ?invtab,
    fun i => readWord_addr (.w (.ofFin i)) s, fun x => gated_read (.esbox (.ofFin x)) rfl,
    fun y => readWord_of_gated (.einv (.ofFin y)) rfl Bool.and_eq_true_iff,
    fun i j => gated_read (.rk i j) rfl, fun n hn h => ?unmapped⟩
  case chkFlags =>
    rw [← chkFlagsWord_eq_ofNat]
    exact gated_read .chkFlags rfl
  case invtab =>
    rw [byte_ofNat_eq (.ofFin a) (m := a.val) rfl, ← atByte_invtab]
    exact readWord_addr (.invtab (.ofFin a)) s
  case unmapped =>
    refine readWord_of_unmapped ?_ s
    rw [BitVec.toNat_ofNat, Nat.mod_eq_of_lt hn]
    exact h

/-- Settles O12: an address is unmapped or a location's, and a store to a location has an effect or none. -/
theorem refusedWritesChangeNothing : Obligations.RefusedWritesChangeNothing := by
  intro s addr d rest hs hi hc
  cases ha : Loc.ofAddr addr with
  | none =>
    split
    · exact absurd ‹_› (not_acceptsWrite_of_unmapped (Loc.ofAddr_eq_none_iff.mp ha) d)
    · exact step_write_unmapped hs hi ha
  | some l =>
    obtain rfl := Loc.addr_of_ofAddr l ha
    have hl : l ≠ .cmd := fun e => hc (congrArg Loc.addr e)
    have has_effect := storeLoc_isSome_iff hl d { s with inbox := rest }
    split
    · obtain ⟨t, ht⟩ := Option.isSome_iff_exists.mp (has_effect.mpr ‹_›)
      exact ⟨_, step_write_accepted hs hi ht, rfl⟩
    · exact step_write_refused hs hi hl (Option.not_isSome_iff_eq_none.mp (mt has_effect.mp ‹_›))

/-- Settles O13: the push of R67, with room and without. -/
theorem sbpushAppendsAndInvalidates : Obligations.SbpushAppendsAndInvalidates := by
  intro s d rest hs hi
  rw [step_sbPush hs hi]
  refine ⟨fun h => ?room, fun h => ?full⟩
  case room => rw [pushSbox_room d { s with inbox := rest } h, fin_ofNat_eq ⟨s.sbLen.val + 1, by omega⟩ rfl]
  case full => rw [pushSbox_full d { s with inbox := rest } h]

/-- Settles O14: the pushes of R68 and R69, each with room and without. -/
theorem keyAndBlockPushesAppend : Obligations.KeyAndBlockPushesAppend := by
  constructor <;> intro s d rest hs hi
  case left =>
    rw [step_keyPush hs hi]
    refine ⟨fun h => ?room, fun h => ?full⟩
    case room => rw [pushKey_room d { s with inbox := rest } h, fin_ofNat_eq ⟨s.keyLen.val + 1, by omega⟩ rfl]
    case full => rw [pushKey_full d { s with inbox := rest } h]
  case right =>
    rw [step_blkPush hs hi]
    refine ⟨fun h => ?room, fun h => ?full⟩
    case room => rw [pushBlk_room d { s with inbox := rest } h, fin_ofNat_eq ⟨s.blkLen.val + 1, by omega⟩ rfl]
    case full => rw [pushBlk_full d { s with inbox := rest } h]

/-- Settles O15: each of the three locations accepts the write. -/
theorem plainStoresStore : Obligations.PlainStoresStore := by
  intro s d rest hs
  refine ⟨fun r hd hi => step_write_accepted (l := .affm r) hs hi (storeLoc_affm_of_byte hd r _),
    fun i hi => step_write_accepted (l := .w (.ofFin i)) hs hi rfl, fun hi => ?_⟩
  rw [← BitVec.setWidth_eq_extractLsb' (by decide)]
  exact step_write_accepted (l := .esticky) hs hi rfl

/-- Settles O16: the step is a trial, which leaves the moves alone. -/
theorem portIsBlockedWhileSearching : Obligations.PortIsBlockedWhileSearching := by
  intro s t f m rest hf hi hr hd h
  rw [step_searching s f hf (by simpa [hi] using hr) (by simpa [hi] using hd)] at h
  obtain ⟨u, hu, rfl⟩ := commandAnswer_eq_next h
  cases hu
  exact ⟨(trialEffect ..).inbox_eq, rfl⟩

end Sys2Proof.Proofs
end

section
/-! The decoder and the encoder (30_encoding.md R90 to R98): a word decodes to an instruction exactly when its fields are
that instruction's; the opcode's row of R93 read as a format; and the masks of R93 read field by field. -/

namespace Sys2Proof

/-! ### A word and its fields -/

/-- The four fields stand side by side in the word (R90). -/
@[simp] theorem fieldsOf_toWord (f : Fields) : fieldsOf f.toWord = f := by
  obtain ⟨opc, a, b, rsv⟩ := f
  have hopc : (rsv ++ b ++ a ++ opc).extractLsb' 0 8 = opc := BitVec.extractLsb'_append_eq_right
  have ha : (rsv ++ b ++ a ++ opc).extractLsb' 8 8 = a := by
    rw [BitVec.extractLsb'_append_eq_of_le (Nat.le_refl 8)]
    exact BitVec.extractLsb'_append_eq_right
  have hb : (rsv ++ b ++ a ++ opc).extractLsb' 16 8 = b := by
    rw [BitVec.extractLsb'_append_eq_of_le (by decide), BitVec.extractLsb'_append_eq_of_le (by decide)]
    exact BitVec.extractLsb'_append_eq_right
  have hrsv : (rsv ++ b ++ a ++ opc).extractLsb' 24 8 = rsv := by
    rw [BitVec.extractLsb'_append_eq_of_le (by decide), BitVec.extractLsb'_append_eq_of_le (by decide)]
    exact BitVec.extractLsb'_append_eq_left
  simp only [fieldsOf, Fields.toWord, hopc, ha, hb, hrsv]

theorem fieldsOf_inj {v w : Word} : fieldsOf v = fieldsOf w ↔ v = w :=
  ⟨fun h => by rw [← toWord_fieldsOf v, h, toWord_fieldsOf], congrArg fieldsOf⟩

/-- `cap = word[23:8]` (R92). -/
theorem cap_fieldsOf (w : Word) : (fieldsOf w).cap = w.extractLsb' 8 16 :=
  BitVec.extractLsb'_append_extractLsb'_eq_extractLsb' rfl

/-- The operand fields are the low and the high byte of the cap (R92). -/
theorem Fields.cap_eq_iff {f : Fields} {cap : Cap} :
    f.cap = cap ↔ f.a = cap.extractLsb' 0 8 ∧ f.b = cap.extractLsb' 8 8 := by
  constructor
  · rintro rfl
    exact ⟨BitVec.extractLsb'_append_eq_right.symm, BitVec.extractLsb'_append_eq_left.symm⟩
  · rintro ⟨ha, hb⟩
    rw [Fields.cap, ha, hb]
    exact BitVec.extractLsb'_append_extractLsb' (w := 8)

/-- Both operand fields are 0 exactly when bits 23:8 are. -/
theorem operands_eq_zero_iff (w : Word) : (fieldsOf w).a = 0 ∧ (fieldsOf w).b = 0 ↔ w.extractLsb' 8 16 = 0 := by
  rw [← cap_fieldsOf, Fields.cap_eq_iff]
  rfl

/-! ### Decoding -/

theorem decode_of_rsv_ne_zero {w : Word} (h : w.extractLsb' 24 8 ≠ 0) : decode w = .error .reservedField := if_pos h

theorem decode_of_rsv_eq_zero {w : Word} (h : w.extractLsb' 24 8 = 0) : decode w = (fieldsOf w).decodeOpcode :=
  if_neg (not_not.mpr h)

@[simp] theorem Instr.rsv_fields (i : Instr) : i.fields.rsv = 0 := by cases i <;> rfl

/-- The decoder reads an instruction's fields back: each opcode selects its own row of R93, and the fields that the row's
format does not use are 0. -/
theorem Instr.decodeOpcode_fields (i : Instr) : i.fields.decodeOpcode = .ok i := by
  cases i
  case sbfind cap =>
    have hcap : (Instr.sbfind cap).fields.cap = cap := Fields.cap_eq_iff.mpr ⟨rfl, rfl⟩
    exact congrArg (fun c => Except.ok (Instr.sbfind c)) hcap
  all_goals rfl

/-- `decode(encode(i)) = i` for every instruction (R98). -/
@[simp] theorem decode_encode (i : Instr) : decode (encode i) = .ok i := by
  have hf : fieldsOf (encode i) = i.fields := fieldsOf_toWord i.fields
  have hr : (encode i).extractLsb' 24 8 = 0 := (congrArg Fields.rsv hf).trans i.rsv_fields
  rw [decode_of_rsv_eq_zero hr, hf, i.decodeOpcode_fields]

/-- A word decodes to the one instruction whose fields it has. -/
theorem decode_eq_ok_iff {w : Word} {i : Instr} : decode w = .ok i ↔ fieldsOf w = i.fields := by
  constructor
  · intro h
    rw [← encode_of_decode h, encode, fieldsOf_toWord]
  · intro h
    rw [← toWord_fieldsOf w, h]
    exact decode_encode i

/-! ### The rows of the opcode map by format -/

/-- What an opcode's format and the decoder of the fields are together (R98): the rows of R93 by format. -/
inductive RowReading (f : Fields) : Option Format → Except IllegalWord Instr → Prop
  | absent : RowReading f none (.error .unknownOpcode)
  | n (i : Instr) (hi : i.format = .n) (hf : i.fields = ⟨f.opc, 0, 0, 0⟩) : RowReading f (some .n) (f.formatN i)
  | a (mk : Byte → Instr) (hi : (mk f.a).format = .a) (hf : (mk f.a).fields = ⟨f.opc, f.a, 0, 0⟩) :
      RowReading f (some .a) (f.formatA mk)
  | ab : RowReading f (some .ab) (.ok (.gfmul f.a f.b))
  | c : RowReading f (some .c) (.ok (.sbfind f.cap))

/-- The format column of R93 and the decoder go by the same rows. -/
theorem Fields.rowReading (f : Fields) : RowReading f (opcodeFormat f.opc) f.decodeOpcode := by
  have opc_eq {n : Nat} (hn : f.opc.toNat = n) : BitVec.ofNat 8 n = f.opc := by simp [← hn]
  unfold Fields.decodeOpcode
  split
  case h_18 => -- the tests that failed are the hypotheses
    simp only [opcodeFormat, *]
    exact .absent
  case h_5 hn => simp only [opcodeFormat, hn]; exact .ab
  case h_11 hn => simp only [opcodeFormat, hn]; exact .c
  case h_6 hn => simp only [opcodeFormat, hn]; exact .a _ rfl (by rw [← opc_eq hn]; rfl)
  case h_9 hn => simp only [opcodeFormat, hn]; exact .a _ rfl (by rw [← opc_eq hn]; rfl)
  all_goals
    rename_i hn
    simp only [opcodeFormat, hn]
    exact .n _ rfl (by rw [← opc_eq hn]; rfl)

/-- An instruction's opcode has its format in R93, and its fields are ones the format admits (R91). -/
theorem encodable (i : Instr) : Laws.Encodable.Statement i := by cases i <;> exact ⟨rfl, rfl⟩

theorem Fields.wellFormed_iff {f : Fields} :
    f.wellFormed = true ↔ f.rsv = 0 ∧ ∃ fmt, opcodeFormat f.opc = some fmt ∧ fmt.admits f = true := by
  rw [Fields.wellFormed, Bool.and_eq_true, beq_iff_eq]
  cases opcodeFormat f.opc <;> simp

@[simp] theorem Format.admits_n {f : Fields} : Format.admits .n f = true ↔ f.a = 0 ∧ f.b = 0 := by
  simp [Format.admits]

@[simp] theorem Format.admits_a {f : Fields} : Format.admits .a f = true ↔ f.b = 0 := by simp [Format.admits]

theorem Instr.wellFormed_eq_true (i : Instr) : i.wellFormed = true := by
  obtain ⟨hopc, hadm⟩ := encodable i
  exact Fields.wellFormed_iff.mpr ⟨i.rsv_fields, i.format, hopc, hadm⟩

/-- Only well-formed fields decode (R94). -/
theorem wellFormed_of_decode {w : Word} {i : Instr} (h : decode w = .ok i) : (fieldsOf w).wellFormed = true := by
  rw [decode_eq_ok_iff.mp h]
  exact i.wellFormed_eq_true

/-! ### The masks of the opcode map -/

theorem fieldsOf_and (v w : Word) :
    fieldsOf (v &&& w) = ⟨(fieldsOf v).opc &&& (fieldsOf w).opc, (fieldsOf v).a &&& (fieldsOf w).a,
      (fieldsOf v).b &&& (fieldsOf w).b, (fieldsOf v).rsv &&& (fieldsOf w).rsv⟩ := by
  simp only [fieldsOf, BitVec.extractLsb'_and]

/-- The mask of format `N` keeps the whole word (R93). -/
theorem decode_eq_ok_iff_of_format_n {w m : Word} {i : Instr} (hi : encode i = m) :
    decode w = .ok i ↔ w &&& 0xFFFFFFFF#32 = m := by
  have hall : w &&& 0xFFFFFFFF#32 = w := BitVec.and_allOnes
  rw [decode_eq_ok_iff, hall, ← hi, ← fieldsOf_inj, encode, fieldsOf_toWord]

/-- The mask of format `A` keeps all fields but the operand `a` (R93). -/
theorem decode_eq_ok_iff_of_format_a {w m : Word} {i : Instr} {opc a : Byte} (hi : i.fields = ⟨opc, a, 0, 0⟩)
    (hm : fieldsOf m = ⟨opc, 0, 0, 0⟩) :
    decode w = .ok i ↔ w &&& 0xFFFF00FF#32 = m ∧ w.extractLsb' 8 8 = a := by
  have hmask : fieldsOf 0xFFFF00FF#32 = ⟨.allOnes 8, 0, .allOnes 8, .allOnes 8⟩ := by decide
  rw [decode_eq_ok_iff, hi, ← fieldsOf_inj, fieldsOf_and, hmask, hm]
  simp only [fieldsOf, Fields.mk.injEq, BitVec.and_allOnes, BitVec.and_zero, BitVec.ofNat_eq_ofNat]
  tauto

/-- The mask of formats `AB` and `C` keeps the opcode and the reserved field (R93). -/
theorem and_mask_operands_eq_iff {w m : Word} {opc : Byte} (hm : fieldsOf m = ⟨opc, 0, 0, 0⟩) :
    w &&& 0xFF0000FF#32 = m ↔ (fieldsOf w).opc = opc ∧ (fieldsOf w).rsv = 0 := by
  have hmask : fieldsOf 0xFF0000FF#32 = ⟨.allOnes 8, 0, 0, .allOnes 8⟩ := by decide
  rw [← fieldsOf_inj, fieldsOf_and, hmask, hm]
  simp only [Fields.mk.injEq, BitVec.and_allOnes, BitVec.and_zero, true_and, BitVec.ofNat_eq_ofNat]

theorem decode_eq_gfmul_iff {w : Word} {a b : Byte} : decode w = .ok (.gfmul a b) ↔
    w &&& 0xFF0000FF#32 = 0x00000010#32 ∧ w.extractLsb' 8 8 = a ∧ w.extractLsb' 16 8 = b := by
  rw [decode_eq_ok_iff, and_mask_operands_eq_iff (opc := 0x10) (by decide)]
  simp only [Instr.fields, fieldsOf, Fields.mk.injEq]
  tauto

theorem decode_eq_sbfind_iff {w : Word} {cap : Cap} : decode w = .ok (.sbfind cap) ↔
    w &&& 0xFF0000FF#32 = 0x00000024#32 ∧ w.extractLsb' 8 16 = cap := by
  rw [decode_eq_ok_iff, and_mask_operands_eq_iff (opc := 0x24) (by decide), ← cap_fieldsOf, Fields.cap_eq_iff]
  simp only [Instr.fields, fieldsOf, Fields.mk.injEq]
  tauto

end Sys2Proof

namespace Sys2Proof.Machine

/-- The write of a word that does not decode raises `IllegalCommand` and answers `OK` (R94, R262). -/
theorem step_write_illegal {s : State} {w : Word} {rest : List HostMove} {e : IllegalWord} (hs : s.search = none)
    (hi : s.inbox = .write Loc.cmd.addr w :: rest) (he : decode w = .error e) :
    step s = .next { Safety.failedWith 1 s with inbox := rest, answer := some .ok } := by
  have hrun : runCommand w { s with inbox := rest } = .next (raise .illegalCommand { s with inbox := rest }) := by
    rw [runCommand, he]
  rw [step_write_cmd hs hi, hrun, commandAnswer_next, raise_search, if_pos hs, raise_eq_failedWith]
  rfl

end Sys2Proof.Machine

namespace Sys2Proof.Proofs

open Sys2Proof.Machine Sys2Proof.Safety

/-- Settles O1: the fields are read back from the word, and each opcode selects the instruction's own row. -/
theorem decodeUndoesEncode : Obligations.DecodeUndoesEncode :=
  fun i => ⟨i.wellFormed_eq_true, decode_encode i⟩

/-- Settles O2: with the reserved field 0, the opcode's row says what the decoder reads. -/
theorem decodingIsTotalAndInverted : Obligations.DecodingIsTotalAndInverted := by
  intro w
  refine ⟨decode_of_rsv_ne_zero, fun hr hf => ?_, fun hr hf => ?_, fun hr hf => ?_, fun hr hf => ?_, fun hr hf => ?_,
    fun _ => encode_of_decode⟩
  all_goals
    have row := (fieldsOf w).rowReading
    rw [show opcodeFormat (fieldsOf w).opc = _ from hf] at row
    rw [decode_of_rsv_eq_zero hr]
    generalize (fieldsOf w).decodeOpcode = r at row ⊢
    cases row
  case absent => rfl
  case ab => rfl
  case c => rw [cap_fieldsOf]
  case n i hi hf =>
    split
    next hne => exact if_neg (mt (operands_eq_zero_iff w).mp hne)
    next h0 => exact ⟨i, if_pos ((operands_eq_zero_iff w).mpr (not_not.mp h0)), hi, hf⟩
  case a mk hi hf =>
    split
    next hne => exact if_neg hne
    next h0 => exact ⟨mk (fieldsOf w).a, if_pos (not_not.mp h0), hi, hf⟩

/-- Settles O3: each row by its format's mask. -/
theorem decodeFollowsTheOpcodeMap : Obligations.DecodeFollowsTheOpcodeMap := fun _ =>
  ⟨decode_eq_ok_iff_of_format_n (by decide), decode_eq_ok_iff_of_format_n (by decide),
    decode_eq_ok_iff_of_format_n (by decide), decode_eq_ok_iff_of_format_n (by decide),
    fun _ _ => decode_eq_gfmul_iff, fun _ => decode_eq_ok_iff_of_format_a rfl (by decide),
    decode_eq_ok_iff_of_format_n (by decide), decode_eq_ok_iff_of_format_n (by decide),
    fun _ => decode_eq_ok_iff_of_format_a rfl (by decide), decode_eq_ok_iff_of_format_n (by decide),
    fun _ => decode_eq_sbfind_iff, decode_eq_ok_iff_of_format_n (by decide), decode_eq_ok_iff_of_format_n (by decide),
    decode_eq_ok_iff_of_format_n (by decide), decode_eq_ok_iff_of_format_n (by decide),
    decode_eq_ok_iff_of_format_n (by decide), decode_eq_ok_iff_of_format_n (by decide)⟩

/-- Settles O7: a word with one of these fields has no well-formed fields, so it does not decode. -/
theorem illegalWordsRaiseIllegalCommand : Obligations.IllegalWordsRaiseIllegalCommand := by
  intro s w rest hs hi hill
  cases hw : decode w with
  | error e => exact step_write_illegal hs hi hw
  | ok i =>
    obtain ⟨hrsv, fmt, hfmt, hadm⟩ := Fields.wellFormed_iff.mp (wellFormed_of_decode hw)
    rcases hill with h | h | ⟨h, hab⟩ | ⟨h, hb⟩
    · exact absurd hrsv h
    · exact absurd (hfmt.symm.trans h) (Option.some_ne_none fmt)
    · obtain rfl := Option.some.inj (hfmt.symm.trans h)
      exact absurd (Format.admits_n.mp hadm) (not_and_or.mpr hab)
    · obtain rfl := Option.some.inj (hfmt.symm.trans h)
      exact absurd (Format.admits_a.mp hadm) hb

/-- Settles O4: the decoder evaluated on each word. -/
theorem handWrittenWordsDecode : Obligations.HandWrittenWordsDecode := by
  unfold Obligations.HandWrittenWordsDecode
  decide

end Sys2Proof.Proofs
end

section
/-! The field of 40_gf256.md: a byte as an element of GF(2)[x] modulo the field polynomial (R110). The loop of `multiply` is
the product of that field, so the laws of R111 and R112 are the field's own. -/

namespace Sys2Proof.Safety

open Sys2Proof.Machine Polynomial

/-! ### Bytes as polynomials -/

theorem coeff_bytePoly (b : Byte) (i : Nat) : (bytePoly b).coeff i = if b.getLsbD i then 1 else 0 := by
  have hterm (j : Nat) : (if b.getLsbD j then (X : (ZMod 2)[X]) ^ j else 0).coeff i =
      if i = j then (if b.getLsbD i then 1 else 0) else 0 := by
    by_cases hij : i = j
    · subst hij; split <;> simp [*]
    · split <;> simp [coeff_X_pow, hij]
  rw [bytePoly, finsetSum_coeff, Finset.sum_congr rfl fun j _ => hterm j, Finset.sum_ite_eq]
  by_cases hi : i < 8
  · rw [if_pos (Finset.mem_range.mpr hi)]
  · simp [hi, BitVec.getLsbD_of_ge b i (by omega)]

theorem degree_bytePoly_lt (b : Byte) : (bytePoly b).degree < 8 := by
  refine (degree_lt_iff_coeff_zero _ 8).mpr fun i hi => ?_
  rw [coeff_bytePoly, BitVec.getLsbD_of_ge b i hi]
  rfl

theorem coeff_bytePoly_eq_one_iff {b : Byte} {i : Nat} : (bytePoly b).coeff i = 1 ↔ b.getLsbD i = true := by
  simp [coeff_bytePoly]

theorem bytePoly_injective : Function.Injective bytePoly := fun a b h =>
  BitVec.eq_of_getLsbD_eq fun i _ => Bool.eq_iff_iff.mpr <| by
    rw [← coeff_bytePoly_eq_one_iff, h, coeff_bytePoly_eq_one_iff]

@[simp] theorem bytePoly_zero : bytePoly 0#8 = 0 := by
  ext i; simp [coeff_bytePoly]

/-- XOR is the addition of polynomials. -/
theorem bytePoly_xor (a b : Byte) : bytePoly (a ^^^ b) = bytePoly a + bytePoly b := by
  ext i
  rw [coeff_add, coeff_bytePoly, coeff_bytePoly, coeff_bytePoly, BitVec.getLsbD_xor]
  cases a.getLsbD i <;> cases b.getLsbD i <;> decide

/-- A left shift is the product with x, without the x^8 term that leaves the byte. -/
theorem bytePoly_shiftLeft (a : Byte) :
    bytePoly (a <<< 1) + (if a.getLsbD 7 then X ^ 8 else 0) = X * bytePoly a := by
  ext i
  rw [coeff_add, apply_ite (coeff · i), coeff_X_pow, coeff_zero, coeff_bytePoly]
  cases i with
  | zero => simp
  | succ i =>
    rw [coeff_X_mul, coeff_bytePoly]
    rcases lt_trichotomy i 7 with hi | rfl | hi
    · simp [hi.ne, BitVec.getLsbD_shiftLeft, show i + 1 < 8 by omega, -BitVec.getLsbD_eq_getElem]
    · simp
    · simp [hi.ne', BitVec.getLsbD_of_ge _ _ (show 8 ≤ i + 1 by omega), BitVec.getLsbD_of_ge a i hi]

/-- A right shift takes the constant term away and divides by x. -/
theorem bytePoly_eq_shiftRight (b : Byte) :
    bytePoly b = (if b.getLsbD 0 then 1 else 0 : (ZMod 2)[X]) + X * bytePoly (b >>> 1) := by
  ext i
  rw [coeff_add, apply_ite (coeff · i), coeff_one, coeff_zero, coeff_bytePoly]
  cases i with
  | zero => simp
  | succ i => simp [coeff_bytePoly, Nat.add_comm 1 i]

@[simp] theorem bytePoly_one : bytePoly 1#8 = 1 := by
  rw [bytePoly_eq_shiftRight]
  simp

/-- Every polynomial below degree 5 is that of a 5-bit byte. -/
theorem exists_bytePoly_setWidth_eq {q : (ZMod 2)[X]} (hq : q.natDegree < 5) :
    ∃ c : BitVec 5, bytePoly (c.setWidth 8) = q := by
  refine ⟨BitVec.ofFnLE fun i => q.coeff i = 1, ?_⟩
  ext i
  rw [coeff_bytePoly, BitVec.getLsbD_setWidth]
  by_cases hi : i < 5
  · have hbit : ∀ z : ZMod 2, (if z = 1 then 1 else 0) = z := by decide
    simpa [hi, show i < 8 by omega] using hbit (q.coeff i)
  · simp [BitVec.getLsbD_of_ge _ _ (not_lt.mp hi), coeff_eq_zero_of_natDegree_lt (show q.natDegree < i by omega)]

/-! ### The field polynomial -/

theorem degree_fieldPoly : fieldPoly.degree = 8 := by unfold fieldPoly; compute_degree!

theorem monic_fieldPoly : fieldPoly.Monic := by unfold fieldPoly; monicity!

theorem fieldPoly_eq_X_pow_add_polyLow : fieldPoly = X ^ 8 + bytePoly Config.polyLow := by
  have hlow : bytePoly Config.polyLow = 1 + X + X ^ 3 + X ^ 4 := by
    simp [bytePoly, Config.polyLow, Finset.sum_range_succ]
  rw [hlow, fieldPoly]
  ring

/-! ### The field -/

/-- A byte as an element of the field of R110: its polynomial modulo the field polynomial. -/
noncomputable def fieldElem (b : Byte) : AdjoinRoot fieldPoly := AdjoinRoot.mk fieldPoly (bytePoly b)

theorem mk_bytePoly (b : Byte) : AdjoinRoot.mk fieldPoly (bytePoly b) = fieldElem b := rfl

theorem fieldElem_eq_iff {a b : Byte} : fieldElem a = fieldElem b ↔ fieldPoly ∣ bytePoly a - bytePoly b :=
  AdjoinRoot.mk_eq_mk

/-- Two bytes with one residue are equal: their difference has a degree below that of the field polynomial. -/
theorem fieldElem_injective : Function.Injective fieldElem := fun a b h =>
  bytePoly_injective <| sub_eq_zero.mp <| eq_zero_of_dvd_of_degree_lt (fieldElem_eq_iff.mp h) <| by
    rw [degree_fieldPoly]
    exact (degree_sub_le ..).trans_lt (max_lt (degree_bytePoly_lt a) (degree_bytePoly_lt b))

@[simp] theorem fieldElem_zero : fieldElem 0#8 = 0 := by rw [fieldElem, bytePoly_zero, map_zero]

@[simp] theorem fieldElem_one : fieldElem 1#8 = 1 := by rw [fieldElem, bytePoly_one, map_one]

@[simp] theorem fieldElem_xor (a b : Byte) : fieldElem (a ^^^ b) = fieldElem a + fieldElem b := by
  rw [fieldElem, bytePoly_xor, map_add, mk_bytePoly, mk_bytePoly]

theorem fieldElem_eq_shiftRight (b : Byte) : fieldElem b =
    (if b.getLsbD 0 then 1 else 0 : AdjoinRoot fieldPoly) + AdjoinRoot.root fieldPoly * fieldElem (b >>> 1) := by
  rw [fieldElem, bytePoly_eq_shiftRight, map_add, map_mul, AdjoinRoot.mk_X, mk_bytePoly,
    apply_ite (AdjoinRoot.mk fieldPoly), map_one, map_zero]

/-- The x^8 term that a shift drops is `polyLow` in the field. -/
theorem fieldElem_polyLow : fieldElem Config.polyLow = AdjoinRoot.root fieldPoly ^ 8 := by
  rw [fieldElem, ← AdjoinRoot.mk_X, ← map_pow, AdjoinRoot.mk_eq_mk, CharTwo.sub_eq_add, add_comm,
    ← fieldPoly_eq_X_pow_add_polyLow]

/-- The shift and reduction of one round of `multiply` is the product with x. -/
theorem fieldElem_shiftLeft_reduce (a : Byte) :
    fieldElem (bif a.getLsbD 7 then (a <<< 1) ^^^ Config.polyLow else a <<< 1) =
      AdjoinRoot.root fieldPoly * fieldElem a := by
  have h := congrArg (AdjoinRoot.mk fieldPoly) (bytePoly_shiftLeft a)
  rw [map_mul, AdjoinRoot.mk_X, map_add, mk_bytePoly, mk_bytePoly] at h
  rw [← h]
  cases a.getLsbD 7 with
  | false => simp
  | true => simp [fieldElem_polyLow]

/-- The loop's invariant: with `n` rounds to go, `p` plus the product of what is left of `a` and `b` is the result. -/
theorem fieldElem_multiplyLoop {n : Nat} {b : Byte} (hb : b.toNat < 2 ^ n) (p a : Byte) :
    fieldElem (multiplyLoop n p a b) = fieldElem p + fieldElem a * fieldElem b := by
  induction n generalizing p a b with
  | zero =>
    obtain rfl : b = 0#8 := BitVec.eq_of_toNat_eq (by simpa using hb)
    simp [multiplyLoop]
  | succ n ih =>
    have hb' : (b >>> 1).toNat < 2 ^ n := by
      rw [BitVec.toNat_ushiftRight, Nat.shiftRight_eq_div_pow]; omega
    rw [multiplyLoop, ih hb', fieldElem_shiftLeft_reduce, fieldElem_eq_shiftRight b]
    cases b.getLsbD 0 with
    | false => rw [cond_false, if_neg Bool.false_ne_true]; ring
    | true => rw [cond_true, if_pos rfl, fieldElem_xor]; ring

/-- `multiply` is the product of the field. -/
@[simp] theorem fieldElem_multiply (a b : Byte) : fieldElem (multiply a b) = fieldElem a * fieldElem b := by
  rw [multiply, fieldElem_multiplyLoop b.isLt, BitVec.ofNat_eq_ofNat, fieldElem_zero, zero_add]

/-- `multiply` is the product of polynomials modulo the field polynomial (R110). -/
theorem fieldPoly_dvd_mul_sub_multiply (a b : Byte) :
    fieldPoly ∣ bytePoly a * bytePoly b - bytePoly (multiply a b) :=
  AdjoinRoot.mk_eq_mk.mp <| by rw [map_mul, mk_bytePoly, mk_bytePoly, mk_bytePoly, fieldElem_multiply]

/-- The search of R112 finds an inverse of each nonzero byte of at most five bits. -/
theorem multiply_inverse_setWidth :
    ∀ c : BitVec 5, c ≠ 0 → multiply (c.setWidth 8) (inverse (c.setWidth 8)) = 1 := by decide +kernel

/-- The field polynomial is irreducible (R111): a factor of degree 1 to 4 would be a byte of at most five bits, but such a
byte has a product that is 1 modulo the field polynomial, so the factor would divide 1. -/
theorem irreducible_fieldPoly : Irreducible fieldPoly := by
  have hdeg : fieldPoly.natDegree = 8 := natDegree_eq_of_degree_eq_some degree_fieldPoly
  refine (monic_fieldPoly.irreducible_iff_lt_natDegree_lt ?_).mpr fun q hq hmem hdvd => ?_
  · intro h
    simp [h] at hdeg
  · rw [hdeg, Finset.mem_Ioc] at hmem
    obtain ⟨c, rfl⟩ := exists_bytePoly_setWidth_eq (show q.natDegree < 5 by omega)
    have hc : c ≠ 0 := by rintro rfl; simp at hmem
    have hinv := fieldPoly_dvd_mul_sub_multiply (c.setWidth 8) (inverse (c.setWidth 8))
    rw [multiply_inverse_setWidth c hc, BitVec.ofNat_eq_ofNat, bytePoly_one] at hinv
    have hone : bytePoly (c.setWidth 8) ∣ 1 := (dvd_sub_right (dvd_mul_right ..)).mp (hdvd.trans hinv)
    exact hmem.1.ne' (natDegree_eq_zero_of_isUnit (isUnit_of_dvd_one hone))

end Sys2Proof.Safety

namespace Sys2Proof.Machine

open Sys2Proof.Safety

/-! ### The laws of `multiply` -/

theorem multiply_comm (a b : Byte) : multiply a b = multiply b a :=
  fieldElem_injective (by simp [mul_comm])

theorem multiply_assoc (a b c : Byte) : multiply a (multiply b c) = multiply (multiply a b) c :=
  fieldElem_injective (by simp [mul_assoc])

theorem multiply_xor (a b c : Byte) : multiply a (b ^^^ c) = multiply a b ^^^ multiply a c :=
  fieldElem_injective (by simp [mul_add])

@[simp] theorem multiply_one (a : Byte) : multiply a 1#8 = a :=
  fieldElem_injective (by simp)

@[simp] theorem multiply_zero (a : Byte) : multiply a 0#8 = 0#8 :=
  fieldElem_injective (by simp)

/-- A nonzero byte cancels, because the field polynomial is irreducible. -/
theorem multiply_injective {a : Byte} (ha : a ≠ 0) : Function.Injective (multiply a) := fun b c h => by
  have : Fact (Irreducible fieldPoly) := ⟨irreducible_fieldPoly⟩
  have ha' : fieldElem a ≠ 0 := by
    rw [← fieldElem_zero]
    exact fieldElem_injective.ne ha
  refine fieldElem_injective (mul_left_cancel₀ ha' ?_)
  rw [← fieldElem_multiply, ← fieldElem_multiply, h]

theorem multiply_two (a : Byte) : multiply a 2 = (a <<< 1) ^^^ (if a.getLsbD 7 then 0x1B#8 else 0) := by
  have htwo : fieldElem 2 = AdjoinRoot.root fieldPoly := by
    rw [fieldElem_eq_shiftRight]; simp
  apply fieldElem_injective
  rw [fieldElem_multiply, htwo, mul_comm, ← fieldElem_shiftLeft_reduce]
  cases a.getLsbD 7 with
  | false => simp
  | true => rfl

/-! ### The inverse -/

@[simp] theorem inverse_zero : inverse 0#8 = 0#8 := rfl

/-- A nonzero byte's products are all bytes, so one of them is 1 and the search of R112 ends on a byte that gives it. -/
theorem multiply_inverse {a : Byte} (ha : a ≠ 0) : multiply a (inverse a) = 1 := by
  obtain ⟨b, hb⟩ := Finite.surjective_of_injective (multiply_injective ha) 1
  have hb0 : b ≠ 0 := by rintro rfl; simp at hb
  have hmem : b ∈ (List.range' 1 255).map (BitVec.ofNat 8) := by
    refine List.mem_map.mpr ⟨b.toNat, List.mem_range'_1.mpr ?_, byte_ofNat_eq b rfl⟩
    have hpos : b.toNat ≠ 0 := fun h => hb0 (BitVec.eq_of_toNat_eq h)
    omega
  rw [inverse, if_neg ha]
  cases hf : ((List.range' 1 255).map (BitVec.ofNat 8)).find? fun b => multiply a b == 1 with
  | none => exact absurd (beq_iff_eq.mpr hb) (List.find?_eq_none.mp hf b hmem)
  | some c => simpa using List.find?_some hf

theorem eq_inverse_of_multiply_eq_one {a b : Byte} (h : multiply a b = 1) : b = inverse a := by
  have ha : a ≠ 0 := by rintro rfl; rw [multiply_comm] at h; simp at h
  exact multiply_injective ha (h.trans (multiply_inverse ha).symm)

theorem inverse_involutive : Function.Involutive inverse := fun a => by
  by_cases ha : a = 0
  · rw [ha]; rfl
  · exact (eq_inverse_of_multiply_eq_one ((multiply_comm ..).trans (multiply_inverse ha))).symm

end Sys2Proof.Machine

namespace Sys2Proof.Proofs

open Sys2Proof.Machine Sys2Proof.Safety

/-- Settles O22: in the field `multiply` is the product, so the two polynomials are congruent. -/
theorem multiplyIsThePolynomialProduct : Obligations.MultiplyIsThePolynomialProduct :=
  fieldPoly_dvd_mul_sub_multiply

/-- Settles O23: the laws hold in the field, and distinct bytes are distinct there. -/
theorem multiplyObeysTheFieldLaws : Obligations.MultiplyObeysTheFieldLaws := fun a b c => by
  refine ⟨multiply_comm a b, multiply_assoc a b c, multiply_xor a b c, multiply_one a, multiply_zero a, fun h => ?_,
    multiply_two a, ?_⟩
  · by_cases ha : a = 0
    · exact .inl ha
    · exact .inr (multiply_injective ha (h.trans (multiply_zero a).symm))
  · calc multiply a 3 = multiply a (2 ^^^ 1) := rfl
      _ = multiply a 2 ^^^ a := by rw [multiply_xor]; simp

/-- Settles O24: a nonzero byte times its inverse is 1, and a nonzero byte cancels. -/
theorem inverseIsTheUniqueInverse : Obligations.InverseIsTheUniqueInverse :=
  ⟨inverse_zero, (eq_inverse_of_multiply_eq_one (multiply_one 1)).symm, inverse_involutive.bijective, fun a =>
    ⟨fun ha => ⟨multiply_inverse ha, fun _ => eq_inverse_of_multiply_eq_one⟩, inverse_involutive a,
      atByte_invtab a⟩⟩

/-- Settles O25: both words and both results are the encoder's and `exec`'s own, evaluated. -/
theorem fieldCommandsWriteTheResult : Obligations.FieldCommandsWriteTheResult := fun _ _ _ =>
  ⟨rfl, rfl, rfl, rfl⟩

end Sys2Proof.Proofs
end

section
/-! The affine map and the elimination of 41_affine.md: `apply_affine` is linear in the operand up to its constant (R125), the
row operations of R123 keep the kernel of the matrix, and the elimination finds every pivot exactly when the kernel is trivial
(R131). -/

namespace Sys2Proof.Machine

/-! ### Parities -/

theorem mod_two_beq_one_succ (n : Nat) : ((n + 1) % 2 == 1) = !(n % 2 == 1) := by
  rcases Nat.mod_two_eq_zero_or_one n with h | h <;> simp [Nat.add_mod, h]

/-- XORing bits one after the other gives the parity of their number. -/
theorem foldl_xor (l : List Nat) (p : Nat → Bool) (b : Bool) :
    l.foldl (fun bit i => bit ^^ p i) b = (b ^^ (l.countP p % 2 == 1)) := by
  induction l generalizing b with
  | nil => simp
  | cons x l ih =>
    rw [List.foldl_cons, ih, List.countP_cons]
    cases p x with
    | false => simp
    | true => simp [mod_two_beq_one_succ]

theorem parity_eq_foldl (v : Byte) : parity v = (List.range 8).foldl (fun bit i => bit ^^ v.getLsbD i) false := by
  rw [foldl_xor, Bool.false_xor]; rfl

theorem foldl_xor_xor (l : List Nat) (p q : Nat → Bool) (x y : Bool) :
    l.foldl (fun bit i => bit ^^ (p i ^^ q i)) (x ^^ y) =
      (l.foldl (fun bit i => bit ^^ p i) x ^^ l.foldl (fun bit i => bit ^^ q i) y) := by
  induction l generalizing x y with
  | nil => rfl
  | cons i l ih =>
    have regroup : (x ^^ y ^^ (p i ^^ q i)) = (x ^^ p i ^^ (y ^^ q i)) := by
      rw [Bool.xor_assoc, Bool.xor_assoc, Bool.xor_left_comm y]
    rw [List.foldl_cons, List.foldl_cons, List.foldl_cons, ← ih, regroup]

/-- The parity is additive. -/
theorem parity_xor (a b : Byte) : parity (a ^^^ b) = (parity a ^^ parity b) := by
  simp only [parity_eq_foldl, BitVec.getLsbD_xor]
  exact foldl_xor_xor (List.range 8) a.getLsbD b.getLsbD false false

@[simp] theorem parity_zero : parity 0#8 = false := by decide

theorem parity_bitMask : ∀ i : Fin 8, parity (bitMask i.val) = true := by decide

/-- The parity of a single bit is the bit. -/
theorem parity_and_bitMask (v : Byte) (i : Fin 8) : parity (v &&& bitMask i.val) = v.getLsbD i.val := by
  rw [bitMask, BitVec.and_twoPow]
  cases v.getLsbD i.val with
  | false => exact parity_zero
  | true => exact parity_bitMask i

theorem getLsbD_bitMask (i j : Fin 8) : (bitMask i.val).getLsbD j.val = decide (i = j) := by
  simp [bitMask, Fin.ext_iff, eq_comm]

/-- Two bytes with the same bits are equal. -/
theorem byte_ext {a b : Byte} (h : ∀ i : Fin 8, a.getLsbD i.val = b.getLsbD i.val) : a = b :=
  BitVec.eq_of_getLsbD_eq fun i hi => h ⟨i, hi⟩

/-- The inner product is linear in its second argument. -/
theorem parity_and_xor (a u v : Byte) : parity (a &&& (u ^^^ v)) = (parity (a &&& u) ^^ parity (a &&& v)) := by
  have distrib : a &&& (u ^^^ v) = (a &&& u) ^^^ (a &&& v) := byte_ext fun i => by
    simp only [BitVec.getLsbD_and, BitVec.getLsbD_xor, Bool.and_xor_distrib_left]
  rw [distrib, parity_xor]

/-- The inner product is linear in its first argument. -/
theorem parity_xor_and (a b v : Byte) : parity ((a ^^^ b) &&& v) = (parity (a &&& v) ^^ parity (b &&& v)) := by
  rw [BitVec.and_comm, parity_and_xor, BitVec.and_comm v a, BitVec.and_comm v b]

/-! ### The affine map -/

/-- R125: a bit of the result is the parity of the row and the operand, XORed with the bit of the constant. -/
theorem getLsbD_applyAffine (v : Byte) (m : Matrix) (row : Fin 8) :
    (applyAffine v m).getLsbD row.val = (parity (m[row] &&& v) ^^ Config.cAff.getLsbD row.val) := by
  rw [applyAffine, getLsbD_byteOfBits, foldl_xor, Bool.xor_comm, parity, popcount]
  simp only [← BitVec.getLsbD_and]

/-- The operand is orthogonal to every row. -/
def InKernel (m : Matrix) (v : Byte) : Prop := ∀ r : Fin 8, parity (m[r] &&& v) = false

/-- Operands with the same image differ by a member of the kernel. -/
theorem applyAffine_eq_iff {m : Matrix} {u v : Byte} :
    applyAffine u m = applyAffine v m ↔ InKernel m (u ^^^ v) := by
  have bit_eq_iff (r : Fin 8) : (applyAffine u m).getLsbD r.val = (applyAffine v m).getLsbD r.val ↔
      parity (m[r] &&& (u ^^^ v)) = false := by
    rw [getLsbD_applyAffine, getLsbD_applyAffine, Bool.xor_left_inj, parity_and_xor]
    exact bne_eq_false_iff_eq.symm
  exact ⟨fun h r => (bit_eq_iff r).mp (by rw [h]), fun h => byte_ext fun r => (bit_eq_iff r).mpr (h r)⟩

theorem applyAffine_injective_iff {m : Matrix} :
    (Function.Injective fun v => applyAffine v m) ↔ ∀ v, InKernel m v → v = 0 := by
  constructor
  · intro h v hv
    exact h (applyAffine_eq_iff.mpr (by simpa using hv))
  · intro h u v huv
    exact BitVec.xor_eq_zero_iff.mp (h _ (applyAffine_eq_iff.mp huv))

/-! ### The row operations -/

theorem getElem_swapRows (m : Matrix) (i j r : Fin 8) : (swapRows m i j)[r] = m[Equiv.swap i j r] := by
  simp only [swapRows, getElem_fin_tabulate, Equiv.swap_apply_def]
  split
  · rfl
  · split <;> rfl

theorem getElem_clearColumn (m : Matrix) (col r : Fin 8) :
    (clearColumn m col)[r] = if r ≠ col ∧ m[r].getLsbD col.val then m[r] ^^^ m[col] else m[r] :=
  getElem_fin_tabulate ..

theorem inKernel_swapRows {m : Matrix} {i j : Fin 8} {v : Byte} : InKernel (swapRows m i j) v ↔ InKernel m v := by
  simp only [InKernel, getElem_swapRows]
  exact (Equiv.swap i j).forall_congr_right (q := fun r => parity (m[r] &&& v) = false)

/-- The row that is added is in both matrices, so being orthogonal to the sums is being orthogonal to the summands. -/
theorem inKernel_clearColumn {m : Matrix} {col : Fin 8} {v : Byte} : InKernel (clearColumn m col) v ↔ InKernel m v := by
  have own_row : (clearColumn m col)[col] = m[col] := by
    rw [getElem_clearColumn, if_neg fun h => h.1 rfl]
  have other_row (hc : parity (m[col] &&& v) = false) (r : Fin 8) :
      parity ((clearColumn m col)[r] &&& v) = parity (m[r] &&& v) := by
    rw [getElem_clearColumn]
    split
    · rw [parity_xor_and, hc, Bool.xor_false]
    · rfl
  constructor <;> intro h r
  · rw [← other_row (own_row ▸ h col)]; exact h r
  · rw [other_row (h col)]; exact h r

/-! ### The elimination -/

/-- The columns before column `k` are those of the identity matrix. -/
def UnitColumns (k : Nat) (m : Matrix) : Prop := ∀ r c : Fin 8, c.val < k → m[r].getLsbD c.val = decide (r = c)

/-- On a vector that lives in the unit columns the matrix is the identity. -/
theorem UnitColumns.parity_and {k : Nat} {m : Matrix} {w : Byte} (hm : UnitColumns k m)
    (hw : ∀ c : Fin 8, k ≤ c.val → w.getLsbD c.val = false) (r : Fin 8) : parity (m[r] &&& w) = w.getLsbD r.val := by
  have same_bits : m[r] &&& w = w &&& bitMask r.val := byte_ext fun c => by
    rw [BitVec.getLsbD_and, BitVec.getLsbD_and, getLsbD_bitMask, Bool.and_comm]
    by_cases hc : c.val < k
    · rw [hm r c hc]
    · rw [hw c (by omega), Bool.false_and, Bool.false_and]
  rw [same_bits, parity_and_bitMask]

/-- The vector that shows column `k` to be a sum of the unit columns before it. -/
def dependency (m : Matrix) (k : Fin 8) : Byte :=
  bitMask k.val ^^^ byteOfBits fun c => decide (c < k) && m[c].getLsbD k.val

theorem dependency_ne_zero (m : Matrix) (k : Fin 8) : dependency m k ≠ 0 := by
  have bit_k : (dependency m k).getLsbD k.val = true := by
    rw [dependency, BitVec.getLsbD_xor, getLsbD_bitMask, getLsbD_byteOfBits]; simp
  intro h
  simp [h] at bit_k

/-- Without a pivot, column `k` depends on the columns before it. -/
theorem inKernel_dependency {m : Matrix} {k : Fin 8} (hm : UnitColumns k.val m)
    (hk : ∀ r, k ≤ r → m[r].getLsbD k.val = false) : InKernel m (dependency m k) := by
  intro r
  have earlier_columns (c : Fin 8) (hc : k.val ≤ c.val) :
      (byteOfBits fun c => decide (c < k) && m[c].getLsbD k.val).getLsbD c.val = false := by
    rw [getLsbD_byteOfBits, decide_eq_false (Fin.not_lt.mpr hc), Bool.false_and]
  rw [dependency, parity_and_xor, parity_and_bitMask, hm.parity_and earlier_columns,
    getLsbD_byteOfBits]
  by_cases hr : r < k
  · rw [decide_eq_true hr, Bool.true_and, Bool.xor_self]
  · rw [decide_eq_false hr, hk r (Fin.not_lt.mp hr)]; rfl

theorem pivotRow_eq_some {m : Matrix} {k p : Fin 8} (h : pivotRow m k = some p) :
    k ≤ p ∧ m[p].getLsbD k.val = true := by
  simpa using List.find?_some h

theorem pivotRow_eq_none {m : Matrix} {k : Fin 8} (h : pivotRow m k = none) (r : Fin 8) (hr : k ≤ r) :
    m[r].getLsbD k.val = false := by
  simpa [hr] using List.find?_eq_none.mp h r (List.mem_finRange r)

/-- Rows from `k` on have no bit in the unit columns, so swapping them keeps these. -/
theorem UnitColumns.swapRows {m : Matrix} {k p : Fin 8} (hm : UnitColumns k.val m) (hp : k ≤ p) :
    UnitColumns k.val (swapRows m k p) := by
  intro r c hc
  have hck : c ≠ k := Fin.ne_of_lt hc
  have hcp : c ≠ p := Fin.ne_of_lt (Fin.lt_of_lt_of_le hc hp)
  rw [getElem_swapRows, hm _ c hc, decide_eq_decide, Equiv.swap_apply_eq_iff, Equiv.swap_apply_of_ne_of_ne hck hcp]

/-- Clearing column `k` with a pivot on the diagonal makes it a unit column and keeps those before it. -/
theorem UnitColumns.clearColumn {m : Matrix} {k : Fin 8} (hm : UnitColumns k.val m) (hk : m[k].getLsbD k.val = true) :
    UnitColumns (k.val + 1) (clearColumn m k) := by
  intro r c hc
  rw [getElem_clearColumn]
  by_cases hck : c = k
  · subst hck
    by_cases hr : r = c
    · rw [if_neg fun h => h.1 hr, hr, hk, decide_eq_true rfl]
    · rw [decide_eq_false hr]
      split
      · have bit_r : m[r].getLsbD c.val = true := And.right ‹_›
        rw [BitVec.getLsbD_xor, bit_r, hk, Bool.xor_self]
      · exact Bool.eq_false_of_not_eq_true (mt (And.intro hr) ‹_›)
  · have hlt : c.val < k.val := by omega
    have hkc : ¬k = c := fun e => hck e.symm
    split
    · rw [BitVec.getLsbD_xor, hm r c hlt, hm k c hlt, decide_eq_false hkc, Bool.xor_false]
    · exact hm r c hlt

/-- One column with a pivot: the kernel is kept, and one more column is a unit column. -/
theorem eliminateColumn_eq_some {m n : Matrix} {k : Fin 8} (h : eliminateColumn m k = some n) (hm : UnitColumns k.val m) :
    UnitColumns (k.val + 1) n ∧ ∀ v, InKernel n v ↔ InKernel m v := by
  obtain ⟨p, hp, rfl⟩ := Option.map_eq_some_iff.mp h
  obtain ⟨hkp, hbit⟩ := pivotRow_eq_some hp
  refine ⟨(hm.swapRows hkp).clearColumn ?_, fun v => inKernel_clearColumn.trans inKernel_swapRows⟩
  simpa only [getElem_swapRows, Equiv.swap_apply_left] using hbit

/-- The elimination from column `k` on finds every pivot exactly when the kernel is trivial. -/
theorem isSome_foldlM_eliminateColumn_iff {l : List (Fin 8)} {k : Nat} {m : Matrix}
    (hl : l.map Fin.val = List.range' k l.length) (hk : k + l.length = 8) (hm : UnitColumns k m) :
    (l.foldlM eliminateColumn m).isSome = true ↔ ∀ v, InKernel m v → v = 0 := by
  induction l generalizing k m with
  | nil =>
    obtain rfl : k = 8 := hk
    refine iff_of_true rfl fun v hv => byte_ext fun r => ?_
    rw [← hm.parity_and (fun c hc => absurd c.isLt (Nat.not_lt.mpr hc)) r, hv r]
    exact BitVec.getLsbD_zero.symm
  | cons c l ih =>
    obtain ⟨rfl, hl⟩ := List.cons_eq_cons.mp hl
    rw [List.foldlM_cons]
    cases he : eliminateColumn m c with
    | none =>
      have no_pivot := pivotRow_eq_none (Option.map_eq_none_iff.mp he)
      exact iff_of_false Bool.false_ne_true fun h => dependency_ne_zero m c (h _ (inKernel_dependency hm no_pivot))
    | some n =>
      obtain ⟨hn, kernel_eq⟩ := eliminateColumn_eq_some he hm
      simp only [← kernel_eq]
      exact ih hl (by rw [List.length_cons] at hk; omega) hn

theorem isInvertible_iff {m : Matrix} : isInvertible m = true ↔ ∀ v, InKernel m v → v = 0 :=
  isSome_foldlM_eliminateColumn_iff (by decide) rfl fun _ _ hc => absurd hc (Nat.not_lt_zero _)

theorem isInvertible_iff_bijective {m : Matrix} :
    isInvertible m = true ↔ Function.Bijective fun v => applyAffine v m :=
  isInvertible_iff.trans (applyAffine_injective_iff.symm.trans Finite.injective_iff_bijective)

end Sys2Proof.Machine

namespace Sys2Proof.Proofs

open Sys2Proof.Machine

/-- Settles O26: the elimination keeps the kernel, and without a pivot it meets a dependent column. -/
theorem invertibleMeansTheAffineMapIsBijective : Obligations.InvertibleMeansTheAffineMapIsBijective :=
  fun _ => isInvertible_iff_bijective

/-- Settles O27: the matrix is the one of the 64 draws. -/
theorem affrndFillsTheMatrix : Obligations.AffrndFillsTheMatrix := fun s =>
  ⟨matrixAt s s.rngPos, rfl, getLsbD_matrixAt s s.rngPos⟩

/-- Settles O28: the words and the outcomes are evaluated, the bits are those of R125. -/
theorem matrixQueriesWriteTheResult : Obligations.MatrixQueriesWriteTheResult := by
  intro a s
  refine ⟨rfl, rfl, ?_, rfl, getLsbD_applyAffine a s.affm⟩
  rw [← Bool.cond_eq_ite]
  rfl

end Sys2Proof.Proofs
end

section
/-! The S-box builder of 41_affine.md: `build_sbox` of an invertible matrix is a permutation of the bytes (R129), a permutation
is bijective and balanced to the validator (R130, R141), and the commands that build S-boxes (R127, R128). -/

namespace Sys2Proof.Machine

open Sys2Proof.Safety

/-! ### Permutations of the bytes -/

theorem toList_eq_map_allBytes (t : Table) : t.toList = allBytes.map (atByte t) := by
  refine List.ext_getElem (by simp) fun i hi _ => ?_
  have hi : i < 256 := by simpa using hi
  simpa [allBytes] using (atByte_ofNat t ⟨i, hi⟩).symm

/-- A permutation lists the same bytes in another order. -/
theorem map_allBytes_perm {f : Byte → Byte} (hf : Function.Bijective f) : (allBytes.map f).Perm allBytes := by
  refine (List.perm_ext_iff_of_nodup (nodup_allBytes.map hf.injective) nodup_allBytes).mpr fun y => ?_
  exact iff_of_true (List.mem_map.mpr ((hf.surjective y).imp fun x hx => ⟨mem_allBytes x, hx⟩)) (mem_allBytes y)

/-- Flipping bit `i` pairs the bytes that have it with those that do not. -/
theorem countP_getLsbD_allBytes (i : Fin 8) : allBytes.countP (fun y => y.getLsbD i.val) = 128 := by
  have flip : Function.Bijective fun y : Byte => y ^^^ bitMask i.val :=
    Function.Involutive.bijective fun y => by rw [BitVec.xor_assoc, BitVec.xor_self, BitVec.xor_zero]
  have with_eq_without : allBytes.countP (fun y => y.getLsbD i.val) = allBytes.countP fun y => !y.getLsbD i.val := by
    rw [← (map_allBytes_perm flip).countP_eq, List.countP_map]
    refine List.countP_congr fun y _ => ?_
    rw [Function.comp, BitVec.getLsbD_xor, getLsbD_bitMask, decide_eq_true rfl, Bool.xor_true]
  have all := List.length_eq_countP_add_countP (fun y : Byte => y.getLsbD i.val) (l := allBytes)
  simp only [length_allBytes, Bool.not_eq_true, Bool.decide_eq_false] at all
  omega

theorem bitCount_of_bijective {t : Table} (ht : Function.Bijective (atByte t)) (i : Fin 8) : bitCount t i.val = 128 := by
  rw [bitCount, toList_eq_map_allBytes, (map_allBytes_perm ht).countP_eq, countP_getLsbD_allBytes]

theorem isBalanced_of_bijective {t : Table} (ht : Function.Bijective (atByte t)) : isBalanced t = true := by
  refine List.all_eq_true.mpr fun i hi => beq_iff_eq.mpr ?_
  exact bitCount_of_bijective ht ⟨i, List.mem_range.mp hi⟩

theorem isBijective_of_bijective {t : Table} (ht : Function.Bijective (atByte t)) : isBijective t = true := by
  have every_value (y : Byte) : t.toList.contains y = true := by
    rw [List.contains_iff_mem, toList_eq_map_allBytes]
    exact (map_allBytes_perm ht).mem_iff.mpr (mem_allBytes y)
  rw [isBijective, distinctValues, List.filter_eq_self.mpr fun y _ => every_value y, length_allBytes]
  rfl

/-- On a complete permutation `SBCHK` finds everything in order (R141). -/
theorem execSbchk_of_bijective {s : State} (hl : s.sbLen = 256) (ht : Function.Bijective (atByte s.sbox)) :
    ∃ u, exec .sbchk s = .next u ∧ u.err = 0 ∧ u.isBij = true ∧ u.isBal = true ∧ ∀ i : Fin 8, u.bitcnt[i] = 128 := by
  refine ⟨_, if_neg (not_not.mpr hl), rfl, isBijective_of_bijective ht, isBalanced_of_bijective ht, fun i => ?_⟩
  simp only [succeed_bitcnt, getElem_fin_tabulate, bitCount_of_bijective ht i]
  rfl

/-! ### The S-box builder -/

/-- R129. -/
theorem atByte_buildSbox (m : Matrix) (x : Byte) : atByte (buildSbox m) x = applyAffine (inverse x) m := by
  rw [buildSbox, atByte_tabulate, ← atByte_invtab]
  rfl

theorem bijective_buildSbox {m : Matrix} (hm : isInvertible m = true) : Function.Bijective (atByte (buildSbox m)) := by
  rw [funext (atByte_buildSbox m)]
  exact (isInvertible_iff_bijective.mp hm).comp inverse_involutive.bijective

theorem execSbbld_of_invertible {s : State} (h : isInvertible s.affm = true) :
    exec .sbbld s = .next { s with
      sbox := buildSbox s.affm, sbLen := 256, chkValid := false, anaValid := false, err := 0 } :=
  if_pos h

theorem execSbbld_of_singular {s : State} (h : isInvertible s.affm = false) :
    exec .sbbld s = .next (failedWith 5 s) := by
  rw [exec, execSbbld, if_neg (by simp [h]), raise_eq_failedWith]
  rfl

/-- A trial that ends the search without an error has committed an invertible candidate. -/
theorem sbox_of_searchTrial {cap : Cap} {n : Nat} {s : State} (hs : (searchTrial cap n s).search = none)
    (he : (searchTrial cap n s).err = 0) :
    (searchTrial cap n s).sbLen = 256 ∧ Function.Bijective (atByte (searchTrial cap n s).sbox) := by
  cases hm : isInvertible (matrixAt s s.rngPos) with
  | true =>
    rw [searchTrial_commit cap n s hm]
    exact ⟨rfl, bijective_buildSbox hm⟩
  | false =>
    by_cases hc : cap = 0 ∨ n + 1 < cap.toNat
    · rw [searchTrial_goOn cap n s hm hc] at hs
      cases hs
    · obtain ⟨h0, hn⟩ := not_or.mp hc
      rw [searchTrial_giveUp cap n s hm h0 (by omega)] at he
      cases he

end Sys2Proof.Machine

namespace Sys2Proof.Proofs

open Sys2Proof.Machine

/-- Settles O29: the two branches of `SBBLD`. -/
theorem sbbldBuildsTheSbox : Obligations.SbbldBuildsTheSbox :=
  ⟨rfl, fun s => ⟨fun h => ⟨buildSbox s.affm, execSbbld_of_invertible h, atByte_buildSbox s.affm⟩,
    execSbbld_of_singular⟩⟩

/-- Settles O34: a committed S-box is an invertible affine map after the inverse, so a permutation. -/
theorem constructedSboxesPassTheValidator : Obligations.ConstructedSboxesPassTheValidator := by
  refine ⟨fun s t hm h => ?sbbld, fun s t h hs he => ?sbfind⟩
  case sbbld =>
    rw [execSbbld_of_invertible hm] at h
    cases h
    exact execSbchk_of_bijective rfl (bijective_buildSbox hm)
  case sbfind =>
    obtain ⟨cap, h⟩ | ⟨f, h⟩ := h <;> cases h
    all_goals
      obtain ⟨hl, ht⟩ := sbox_of_searchTrial hs he
      exact execSbchk_of_bijective hl ht

end Sys2Proof.Proofs
end

section
/-! The whole `SBFIND` command of 41_affine.md R128, trial by trial (00_scope.md R10; assumption log 3): while the candidates
are singular and the cap allows, a step is a trial on the state that differs from the first in the moves and the cursor alone. -/

namespace Sys2Proof.Machine

open Sys2Proof.Safety

/-! ### Runs -/

/-- The first step of a run. -/
theorem run_succ_of_step {M : Host.Core} {s t : M.State} (h : M.step s = .next t) (n : Nat) :
    M.run (n + 1) s = M.run n t := by
  rw [Host.Core.run, h]

/-- The last step of a run. -/
theorem run_succ_of_run {M : Host.Core} {s t : M.State} {n : Nat} (h : M.run n s = .next t) :
    M.run (n + 1) s = M.step t := by
  induction n generalizing s with
  | zero =>
    cases h
    rw [Host.Core.run]
    cases M.step t <;> rfl
  | succ n ih =>
    cases hs : M.step s with
    | next u =>
      rw [run_succ_of_step hs] at h ⊢
      exact ih h
    | fault r => rw [Host.Core.run, hs] at h; cases h
    | refused r => rw [Host.Core.run, hs] at h; cases h

/-! ### Trials -/

/-- The answer and the search before a trial do not matter: the step of the trial writes its own. -/
theorem searchStep_congr (f : Search) (s : State) (a : Option Answer) (g : Option Search) :
    searchStep f { s with answer := a, search := g } = searchStep f s := by
  have same_stream : matrixAt { s with answer := a, search := g } = matrixAt s := matrixAt_congr rfl
  simp only [searchStep, searchTrial, same_stream]
  split
  · rfl
  · split <;> rfl

section
variable {s : State} {cap : Cap} {rest : List HostMove}

/-- The state before trial `n` of the command, as far as the trial depends on it: the moves that are left and the cursor. -/
def beforeTrial (s : State) (rest : List HostMove) (n : Nat) : State :=
  { s with inbox := afterIdles n rest, rngPos := s.rngPos + 64 * n }

theorem beforeTrial_zero (s : State) (rest : List HostMove) : beforeTrial s rest 0 = { s with inbox := rest } := by
  rw [beforeTrial, afterIdles_zero]; rfl

theorem beforeTrial_succ (s : State) (rest : List HostMove) (n : Nat) : beforeTrial s rest (n + 1) =
    { s with inbox := afterIdles 1 (afterIdles n rest), rngPos := s.rngPos + 64 * n + 64 } := by
  rw [afterIdles_one]; rfl

/-- After `n` singular candidates within the cap, and without `RST`, the next step is trial `n`. -/
theorem run_sbfind_eq_searchStep (hs : s.search = none)
    (hi : s.inbox = .write 0x001#12 (encode (.sbfind cap)) :: rest) {n : Nat}
    (hr : ∀ k, k < n → (afterIdles k rest).head? ≠ some .rst)
    (hm : ∀ k, k < n → isInvertible (matrixAt s (s.rngPos + 64 * k)) = false) (hc : cap = 0 ∨ n < cap.toNat) :
    Host.Core.run Sys2Proof.core (n + 1) s = searchStep ⟨cap, n⟩ (beforeTrial s rest n) := by
  induction n with
  | zero =>
    have first_step : step s = searchStep ⟨cap, 0⟩ (beforeTrial s rest 0) := by
      rw [step_write_cmd hs hi, runCommand, decode_encode, beforeTrial_zero]; rfl
    exact (run_succ_of_run (M := Sys2Proof.core) rfl).trans first_step
  | succ n ih =>
    have trials_before := ih (fun k hk => hr k (by omega)) (fun k hk => hm k (by omega)) (hc.imp_right (by omega))
    have singular : isInvertible (matrixAt (beforeTrial s rest n) (beforeTrial s rest n).rngPos) = false := hm n (by omega)
    rw [searchStep, searchTrial_goOn cap n _ singular hc, commandAnswer_next] at trials_before
    refine (run_succ_of_run trials_before).trans ?_
    refine (step_searching_moves _ ⟨cap, n + 1⟩ rfl (hr n (by omega))).trans ?_
    rw [beforeTrial_succ]
    exact searchStep_congr ⟨cap, n + 1⟩
      { s with inbox := afterIdles 1 (afterIdles n rest), rngPos := s.rngPos + 64 * n + 64 } none (some ⟨cap, n + 1⟩)

end

end Sys2Proof.Machine

namespace Sys2Proof.Proofs

open Sys2Proof.Machine Sys2Proof.Safety

/-- Settles O30: the three cases of a trial, the first of the command. -/
theorem sbfindTriesOneCandidate : Obligations.SbfindTriesOneCandidate := by
  refine fun cap s hs => ⟨fun h => ?commit, fun h hc => ?giveUp, fun h hc => ?goOn⟩
  case commit =>
    rw [exec, execSbfind, searchTrial_commit cap 0 s h, ← hs]
  case giveUp =>
    subst hc
    rw [exec, execSbfind, searchTrial_giveUp 1 0 s h (by decide) (by decide), raise_eq_failedWith, ← hs]
    rfl
  case goOn =>
    rw [exec, execSbfind, searchTrial_goOn cap 0 s h (by bv_omega)]

/-- Settles O31: the candidate of trial `n` is the first that is invertible, and the trial commits it. -/
theorem sbfindEndsAtTheFirstInvertibleCandidate : Obligations.SbfindEndsAtTheFirstInvertibleCandidate := by
  intro s cap n rest hs hi hr hm hn hc
  refine (run_sbfind_eq_searchStep hs hi hr hm (hc.imp_right (by omega))).trans ?_
  rw [searchStep, searchTrial_commit cap n (beforeTrial s rest n) hn, commandAnswer_next, if_pos rfl, ← hs]
  rfl

/-- Settles O32: the trial that reaches the cap gives up. -/
theorem sbfindGivesUpAfterItsCap : Obligations.SbfindGivesUpAfterItsCap := by
  intro s cap rest hs hi h0 hr hm
  obtain ⟨n, hn⟩ : ∃ n, cap.toNat = n + 1 := Nat.exists_eq_succ_of_ne_zero (by bv_omega)
  have singular : isInvertible (matrixAt (beforeTrial s rest n) (beforeTrial s rest n).rngPos) = false := hm n (by omega)
  rw [hn]
  refine (run_sbfind_eq_searchStep hs hi (fun k hk => hr k (by omega)) (fun k hk => hm k (by omega))
    (.inr (by omega))).trans ?_
  rw [searchStep, searchTrial_giveUp cap n _ singular h0 hn.le, commandAnswer_next, raise_search,
    if_pos rfl, ← hs, raise_eq_failedWith]
  rfl

end Sys2Proof.Proofs
end


section
/-! The validator of 42_validator.md R140 and R141: the counts of the model are the cardinalities of the rule, whatever the
table, and each count fits its register. -/

namespace Sys2Proof.Machine

open Sys2Proof.Safety

theorem mem_toList_iff (t : Table) (y : Byte) : y ∈ t.toList ↔ ∃ x ∈ Finset.range 256, atByte t (nthByte x) = y := by
  rw [toList_eq_map_allBytes]
  simp only [allBytes, List.mem_map, List.mem_range, exists_exists_and_eq_and, Finset.mem_range, nthByte]

/-- The detector's marks are the set of the table's values (R141). -/
theorem distinctValues_eq_card (t : Table) :
    distinctValues t = ((Finset.range 256).image fun x => atByte t (nthByte x)).card := by
  have marked_nodup : (allBytes.filter fun y => t.toList.contains y).Nodup := nodup_allBytes.filter _
  rw [distinctValues, ← List.toFinset_card_of_nodup marked_nodup]
  refine congrArg Finset.card (Finset.ext fun y => ?_)
  simp only [List.mem_toFinset, List.mem_filter, mem_allBytes, true_and, List.contains_iff_mem, mem_toList_iff,
    Finset.mem_image]

theorem isBijective_iff_card (t : Table) :
    isBijective t = true ↔ ((Finset.range 256).image fun x => atByte t (nthByte x)).card = 256 := by
  rw [isBijective, beq_iff_eq, distinctValues_eq_card]

/-- The counter of bit `i` counts the indices whose entry has the bit (R141). -/
theorem bitCount_eq_card (t : Table) (i : Nat) :
    bitCount t i = ((Finset.range 256).filter fun x => (atByte t (nthByte x)).getLsbD i = true).card := by
  rw [bitCount, toList_eq_map_allBytes, allBytes, List.map_map, List.countP_map,
    ← Nat.count_eq_card_filter_range, Nat.count]
  exact List.countP_congr fun _ _ => decide_eq_true_iff.symm

theorem isBalanced_iff (t : Table) : isBalanced t = true ↔ ∀ i : Fin 8, bitCount t i.val = 128 := by
  simp [isBalanced, Fin.forall_iff]

/-- No count is truncated by its 9-bit register (R40). -/
theorem toNat_ofNat_bitCount (t : Table) (i : Nat) : (BitVec.ofNat 9 (bitCount t i)).toNat = bitCount t i := by
  rw [BitVec.toNat_ofNat, Nat.mod_eq_of_lt ((bitCount_le t i).trans_lt (by decide))]

theorem ofNat_bitCount_eq_iff (t : Table) (i : Nat) : BitVec.ofNat 9 (bitCount t i) = 128 ↔ bitCount t i = 128 := by
  rw [← BitVec.toNat_inj, toNat_ofNat_bitCount]
  rfl

theorem execSbchk_of_incomplete {s : State} (hl : s.sbLen ≠ 256) : exec .sbchk s = .next (failedWith 2 s) := by
  rw [exec, execSbchk, if_pos hl, raise_eq_failedWith]
  rfl

theorem execSbchk_of_complete {s : State} (hl : s.sbLen = 256) :
    exec .sbchk s = .next { s with
      isBij := isBijective s.sbox, isBal := isBalanced s.sbox
      bitcnt := tabulate fun i => BitVec.ofNat 9 (bitCount s.sbox i.val), chkValid := true, err := 0 } :=
  if_neg (not_not.mpr hl)

end Sys2Proof.Machine

namespace Sys2Proof.Proofs

open Sys2Proof.Machine

/-- Settles O35: on a complete S-box the registers are the counts of R141, on another `SBCHK` fails. -/
theorem sbchkReportsTheVerdicts : Obligations.SbchkReportsTheVerdicts := by
  refine ⟨rfl, fun s => ⟨execSbchk_of_incomplete, fun hl =>
    ⟨_, execSbchk_of_complete hl, rfl, ?bij, fun i => ?count, ?bal⟩⟩⟩
  case bij => exact isBijective_iff_card s.sbox
  case count => rw [getElem_fin_tabulate, toNat_ofNat_bitCount, bitCount_eq_card]
  case bal => simp only [isBalanced_iff, getElem_fin_tabulate, ofNat_bitCount_eq_iff]

end Sys2Proof.Proofs
end

section
/-! The inverse S-box of 43_aes128.md R151: the search from the top finds the greatest index of a value, and a bijective table
has one index for each value. -/

namespace Sys2Proof.Machine

theorem bijective_of_isBijective {t : Table} (h : isBijective t = true) : Function.Bijective (atByte t) := by
  have every_value : ∀ y ∈ allBytes, t.toList.contains y = true := by
    rw [← List.length_filter_eq_length_iff, length_allBytes]
    exact beq_iff_eq.mp h
  refine Finite.surjective_iff_bijective.mp fun y => ?_
  have hy := every_value y (mem_allBytes y)
  rw [List.contains_iff_mem, toList_eq_map_allBytes] at hy
  obtain ⟨x, -, hx⟩ := List.mem_map.mp hy
  exact ⟨x, hx⟩

theorem pairwise_lt_allBytes : allBytes.Pairwise (· < ·) := by
  rw [allBytes, List.pairwise_map]
  refine List.pairwise_lt_range.imp_of_mem fun {a b} ha hb hab => ?_
  rw [List.mem_range] at ha hb
  rw [BitVec.lt_def, BitVec.toNat_ofNat, BitVec.toNat_ofNat, Nat.mod_eq_of_lt ha, Nat.mod_eq_of_lt hb]
  exact hab

theorem lastIndexOf_atByte_of_greatest {t : Table} {i : Byte} (hi : ∀ j, atByte t j = atByte t i → j ≤ i) :
    lastIndexOf t (atByte t i) = some i := by
  have hmem : i ∈ allBytes.reverse := List.mem_reverse.mpr (mem_allBytes i)
  rw [lastIndexOf]
  cases hf : allBytes.reverse.find? fun j => atByte t j == atByte t i with
  | none => exact absurd (beq_self_eq_true (atByte t i)) (List.find?_eq_none.mp hf i hmem)
  | some j =>
    obtain ⟨hj, before, after, hsplit, hbefore⟩ := List.find?_eq_some_iff_append.mp hf
    have descending : (before ++ j :: after).Pairwise (fun a b => b < a) :=
      hsplit ▸ List.pairwise_reverse.mpr pairwise_lt_allBytes
    have hij : i ≤ j := by
      rw [hsplit, List.mem_append, List.mem_cons] at hmem
      obtain hin | rfl | hin := hmem
      · simpa using hbefore i hin
      · exact BitVec.le_refl i
      · exact BitVec.le_of_lt ((List.pairwise_cons.mp (List.pairwise_append.mp descending).2.1).1 i hin)
    rw [BitVec.le_antisymm (hi j (beq_iff_eq.mp hj)) hij]

theorem atByte_invSbox (t : Table) (y : Byte) :
    atByte (invSbox t) y = (lastIndexOf t y).getD (Config.einvUnwritten t y) := by
  simp [invSbox]

/-- The entry of a value is the greatest index that has it (R151). -/
theorem atByte_invSbox_of_greatest {t : Table} {i : Byte} (hi : ∀ j, atByte t j = atByte t i → j ≤ i) :
    atByte (invSbox t) (atByte t i) = i := by
  rw [atByte_invSbox, lastIndexOf_atByte_of_greatest hi, Option.getD_some]

theorem atByte_invSbox_atByte {t : Table} (ht : isBijective t = true) (x : Byte) :
    atByte (invSbox t) (atByte t x) = x :=
  atByte_invSbox_of_greatest fun _ hj => BitVec.le_of_eq ((bijective_of_isBijective ht).injective hj)

theorem atByte_atByte_invSbox {t : Table} (ht : isBijective t = true) (y : Byte) :
    atByte t (atByte (invSbox t) y) = y := by
  obtain ⟨x, rfl⟩ := (bijective_of_isBijective ht).surjective y
  rw [atByte_invSbox_atByte ht]

end Sys2Proof.Machine

namespace Sys2Proof.Proofs

open Sys2Proof.Machine

/-- Settles O36: the greatest index of a value, which for a bijective table is its only one. -/
theorem inverseSboxInvertsTheSbox : Obligations.InverseSboxInvertsTheSbox := fun _ =>
  ⟨fun ht x => ⟨atByte_invSbox_atByte ht x, atByte_atByte_invSbox ht x⟩, fun _ => atByte_invSbox_of_greatest⟩

end Sys2Proof.Proofs
end

section
/-! The key schedule of 43_aes128.md R153: the words that stand after `n` rounds of the loop, and the entry of a word from the
words before it. -/

namespace Sys2Proof.Machine

/-- The words after `n` rounds of the loop of R153, newest first. -/
def scheduleWords (k : Block) (t : Table) (n : Nat) : List KeyWord :=
  expandLoop t n 4 [seedWord k 3, seedWord k 2, seedWord k 1, seedWord k 0]

/-- `word[i]` of R153 from the words so far, newest first. -/
def nextWord (t : Table) (i : Nat) (ws : List KeyWord) : KeyWord :=
  xorWord (scheduleTemp t i (ws.getD 0 (Vector.replicate 4 0))) (ws.getD 3 (Vector.replicate 4 0))

/-- The loop's last round puts a word in front of the words before it. -/
theorem expandLoop_succ (t : Table) (n i : Nat) (ws : List KeyWord) :
    expandLoop t (n + 1) i ws = nextWord t (i + n) (expandLoop t n i ws) :: expandLoop t n i ws := by
  induction n generalizing i ws with
  | zero => rfl
  | succ n ih =>
    calc expandLoop t (n + 1 + 1) i ws
        = expandLoop t (n + 1) (i + 1) (nextWord t i ws :: ws) := rfl
      _ = nextWord t (i + (n + 1)) (expandLoop t (n + 1) i ws) :: expandLoop t (n + 1) i ws := by
        rw [ih, Nat.add_right_comm, Nat.add_assoc]; rfl

theorem scheduleWords_succ (k : Block) (t : Table) (n : Nat) :
    scheduleWords k t (n + 1) = nextWord t (4 + n) (scheduleWords k t n) :: scheduleWords k t n :=
  expandLoop_succ t n 4 _

@[simp] theorem length_scheduleWords (k : Block) (t : Table) (n : Nat) : (scheduleWords k t n).length = n + 4 := by
  induction n with
  | zero => rfl
  | succ n ih => rw [scheduleWords_succ, List.length_cons, ih, Nat.add_right_comm]

/-- Later rounds leave the words where they are, counted from the oldest. -/
theorem reverse_scheduleWords_getD (k : Block) (t : Table) {m n i : Nat} (hmn : m ≤ n) (hi : i < m + 4) (w : KeyWord) :
    (scheduleWords k t n).reverse.getD i w = (scheduleWords k t m).reverse.getD i w := by
  induction n, hmn using Nat.le_induction with
  | base => rfl
  | succ n hmn ih =>
    rw [scheduleWords_succ, List.reverse_cons, List.getD_append, ih]
    simp only [List.length_reverse, length_scheduleWords]
    omega

/-- Word `i` of the schedule stands at place `j` of the words after `n` rounds, newest first. -/
theorem getElem_expandKey (k : Block) (t : Table) {n i j : Nat} (hn : n ≤ 40) (hij : i + j = n + 3) (h : i < 44) :
    (expandKey k t)[i] = (scheduleWords k t n).getD j (Vector.replicate 4 0) := by
  calc (expandKey k t)[i] = (scheduleWords k t 40).reverse.getD i (Vector.replicate 4 0) := getElem_tabulate _ i h
    _ = (scheduleWords k t n).reverse.getD i (Vector.replicate 4 0) := reverse_scheduleWords_getD k t hn (by omega) _
    _ = (scheduleWords k t n).getD j (Vector.replicate 4 0) := by
      rw [List.getD_reverse i (by rw [length_scheduleWords]; omega), length_scheduleWords]
      congr 1
      omega

/-- The recurrence of R153. -/
theorem getElem_expandKey_add_four (k : Block) (t : Table) {n : Nat} (h : n + 4 < 44) :
    (expandKey k t)[n + 4] = xorWord (scheduleTemp t (n + 4) (expandKey k t)[n + 3]) (expandKey k t)[n] := by
  rw [getElem_expandKey k t (n := n + 1) (j := 0) (by omega) rfl, getElem_expandKey k t (n := n) (j := 0) (by omega) rfl,
    getElem_expandKey k t (n := n) (j := 3) (by omega) rfl, scheduleWords_succ, Nat.add_comm 4 n]
  rfl

theorem getElem_expandKey_seed (k : Block) (t : Table) (i : Fin 4) : (expandKey k t)[i.val] = seedWord k i := by
  rw [getElem_expandKey k t (n := 0) (j := 3 - i.val) (by omega) (by omega)]
  fin_cases i <;> rfl

theorem rcon_succ (r : Fin 10) :
    rcon (r.val + 1) = ([0x01, 0x02, 0x04, 0x08, 0x10, 0x20, 0x40, 0x80, 0x1B, 0x36] : List Byte).getD r.val 0 := by
  fin_cases r <;> rfl

theorem getElem_scheduleTemp (t : Table) (i : Nat) (prev : KeyWord) (j : Fin 4) :
    (scheduleTemp t i prev)[j] =
      if i % 4 = 0 then atByte t prev[j + 1] ^^^ (if j = 0 then rcon (i / 4) else 0) else prev[j] := by
  rw [scheduleTemp]
  split
  · by_cases hj : j = 0
    · simp [addRcon, subWord, rotWord, hj]
    · simp [addRcon, subWord, rotWord, hj]
  · rfl

end Sys2Proof.Machine

namespace Sys2Proof.Proofs

open Sys2Proof.Machine

/-- Settles O37: the words after `n` rounds hold the seeds and every word of the recurrence in its place. -/
theorem keyScheduleFollowsTheRecurrence : Obligations.KeyScheduleFollowsTheRecurrence := by
  refine fun k t => ⟨fun i j => ?seed, fun i h4 h j => ?word⟩
  case seed => rw [getElem_expandKey_seed, seedWord, getElem_fin_tabulate]
  case word =>
    obtain ⟨n, rfl⟩ := Nat.exists_eq_add_of_le' h4
    have hr := rcon_succ ⟨n / 4, by omega⟩
    have hdiv : (n + 4) / 4 = n / 4 + 1 := Nat.add_div_right n (by decide)
    rw [getElem_expandKey_add_four k t h, xorWord, getElem_fin_tabulate, getElem_scheduleTemp, hdiv, hr, BitVec.xor_comm]
    rfl

end Sys2Proof.Proofs
end

section
/-! The commands of 43_aes128.md: each outcome of `KEXP` (R152), `ENC` (R166) and `DEC` (R167), with its test order (R261). -/

namespace Sys2Proof.Machine

open Sys2Proof.Safety

variable {s : State}

theorem execKexp_of_key_incomplete (hk : s.keyLen ≠ 16) : exec .kexp s = .next (failedWith 3 s) := by
  rw [exec, execKexp, if_pos hk, raise_eq_failedWith]
  rfl

theorem execKexp_of_sbox_incomplete (hk : s.keyLen = 16) (hl : s.sbLen ≠ 256) :
    exec .kexp s = .next (failedWith 2 s) := by
  rw [exec, execKexp, if_neg (not_not.mpr hk), if_pos hl, raise_eq_failedWith]
  rfl

theorem execKexp_of_complete (hk : s.keyLen = 16) (hl : s.sbLen = 256) :
    exec .kexp s = .next { s with
      esbox := s.sbox, engBij := isBijective s.sbox, einv := invSbox s.sbox, rk := expandKey s.key s.sbox
      engValid := true, err := 0 } := by
  rw [exec, execKexp, if_neg (not_not.mpr hk), if_neg (not_not.mpr hl)]
  rfl

theorem execEnc_of_no_engine (hv : s.engValid = false) : exec .enc s = .next (failedWith 7 s) := by
  rw [exec, execEnc, if_pos hv, raise_eq_failedWith]
  rfl

theorem execEnc_of_block_incomplete (hv : s.engValid = true) (hb : s.blkLen ≠ 16) :
    exec .enc s = .next (failedWith 4 s) := by
  rw [exec, execEnc, if_neg (ne_false_of_eq_true hv), if_pos hb, raise_eq_failedWith]
  rfl

theorem execEnc_of_ready (hv : s.engValid = true) (hb : s.blkLen = 16) :
    exec .enc s = .next { s with out := encryptBlock s.esbox s.rk s.blk, outValid := true, err := 0 } := by
  rw [exec, execEnc, if_neg (ne_false_of_eq_true hv), if_neg (not_not.mpr hb)]
  rfl

theorem execDec_of_no_engine (hv : s.engValid = false) : exec .dec s = .next (failedWith 7 s) := by
  rw [exec, execDec, if_pos hv, raise_eq_failedWith]
  rfl

theorem execDec_of_block_incomplete (hv : s.engValid = true) (hb : s.blkLen ≠ 16) :
    exec .dec s = .next (failedWith 4 s) := by
  rw [exec, execDec, if_neg (ne_false_of_eq_true hv), if_pos hb, raise_eq_failedWith]
  rfl

theorem execDec_of_not_bijective (hv : s.engValid = true) (hb : s.blkLen = 16) (hj : s.engBij = false) :
    exec .dec s = .next (failedWith 2 s) := by
  rw [exec, execDec, if_neg (ne_false_of_eq_true hv), if_neg (not_not.mpr hb), if_pos hj, raise_eq_failedWith]
  rfl

theorem execDec_of_ready (hv : s.engValid = true) (hb : s.blkLen = 16) (hj : s.engBij = true) :
    exec .dec s = .next { s with out := decryptBlock s.einv s.rk s.blk, outValid := true, err := 0 } := by
  rw [exec, execDec, if_neg (ne_false_of_eq_true hv), if_neg (not_not.mpr hb), if_neg (ne_false_of_eq_true hj)]
  rfl

end Sys2Proof.Machine

namespace Sys2Proof.Proofs

open Sys2Proof.Machine

/-- Settles O38: the three outcomes of `KEXP`. -/
theorem kexpBuildsTheEngine : Obligations.KexpBuildsTheEngine :=
  ⟨rfl, fun _ => ⟨execKexp_of_key_incomplete, execKexp_of_sbox_incomplete, execKexp_of_complete⟩⟩

/-- Settles O39: the outcomes of `ENC` and `DEC`. -/
theorem blockCommandsWriteOut : Obligations.BlockCommandsWriteOut :=
  ⟨rfl, rfl, fun _ =>
    ⟨fun hv => ⟨execEnc_of_no_engine hv, execDec_of_no_engine hv⟩,
      fun hv hb => ⟨execEnc_of_block_incomplete hv hb, execDec_of_block_incomplete hv hb⟩,
      fun hv hb => ⟨execEnc_of_ready hv hb, execDec_of_ready hv hb, execDec_of_not_bijective hv hb⟩⟩⟩

end Sys2Proof.Proofs
end

section
/-! The round functions of 43_aes128.md R155 to R163: entry by entry, and each as its partner's inverse. The column mixes are
products of 4x4 matrices over the field of R110. -/

namespace Sys2Proof.Machine

open Sys2Proof.Safety

/-! ### Entries -/

theorem getElem_loadState (b : Block) (r c : Fin 4) : (loadState b)[r][c] = b[r.val + 4 * c.val] :=
  getElem_cipherState ..

theorem getElem_storeState (m : CipherState) (r c : Fin 4) : (storeState m)[r.val + 4 * c.val] = m[r][c] := by
  have hr : (r.val + 4 * c.val) % 4 = r.val := by omega
  have hc : (r.val + 4 * c.val) / 4 = c.val := by omega
  simp [storeState, hr, hc]

theorem getElem_addRoundKey (rk : Schedule) (round : Fin 11) (m : CipherState) (r c : Fin 4) :
    (addRoundKey rk round m)[r][c] = m[r][c] ^^^ rk[4 * round.val + c.val][r] :=
  getElem_cipherState ..

/-- Round key 0 is the words from 0 on (R154). -/
theorem getElem_addRoundKey_zero (rk : Schedule) (m : CipherState) (r c : Fin 4) :
    (addRoundKey rk 0 m)[r][c] = m[r][c] ^^^ rk[c.val][r] := by
  simp only [getElem_addRoundKey, Fin.val_zero, mul_zero, zero_add]

/-- Round key 10 is the words from 40 on (R154). -/
theorem getElem_addRoundKey_ten (rk : Schedule) (m : CipherState) (r c : Fin 4) :
    (addRoundKey rk 10 m)[r][c] = m[r][c] ^^^ rk[40 + c.val][r] :=
  getElem_addRoundKey ..

theorem getElem_subBytes (t : Table) (m : CipherState) (r c : Fin 4) : (subBytes t m)[r][c] = atByte t m[r][c] :=
  getElem_cipherState ..

theorem getElem_shiftRows (m : CipherState) (r c : Fin 4) : (shiftRows m)[r][c] = m[r][c + r] :=
  getElem_cipherState ..

theorem getElem_invShiftRows (m : CipherState) (r c : Fin 4) : (invShiftRows m)[r][c] = m[r][c - r] :=
  getElem_cipherState ..

/-! ### The column mixes -/

@[simp] theorem one_multiply (a : Byte) : multiply 1#8 a = a := by rw [multiply_comm, multiply_one]

@[simp] theorem zero_multiply (a : Byte) : multiply 0#8 a = 0#8 := by rw [multiply_comm, multiply_zero]

theorem fieldElem_mixWith (k m : CipherState) (r c : Fin 4) :
    fieldElem (mixWith k m)[r][c] = ∑ j : Fin 4, fieldElem k[r][j] * fieldElem m[j][c] := by
  rw [mixWith, getElem_cipherState, Fin.sum_univ_four]
  simp only [fieldElem_xor, fieldElem_multiply]
  rfl

/-- A row of the mix by rotations, its terms in the order of the first row's coefficients. -/
theorem getElem_mixWith_rotatedRows (first : KeyWord) (m : CipherState) (r c : Fin 4) :
    (mixWith (rotatedRows first) m)[r][c] =
      multiply first[0] m[r][c] ^^^ multiply first[1] m[r + 1][c] ^^^ multiply first[2] m[r + 2][c] ^^^
        multiply first[3] m[r + 3][c] := by
  apply fieldElem_injective
  calc fieldElem (mixWith (rotatedRows first) m)[r][c]
      = ∑ k : Fin 4, fieldElem first[k - r] * fieldElem m[k][c] := by
        simp only [fieldElem_mixWith, getElem_rotatedRows]
    _ = ∑ j : Fin 4, fieldElem first[j] * fieldElem m[r + j][c] := by
        rw [← Equiv.sum_comp (Equiv.addLeft r)]
        simp only [Equiv.coe_addLeft, add_sub_cancel_left]
    _ = _ := by
        rw [Fin.sum_univ_four]
        simp only [fieldElem_xor, fieldElem_multiply, add_zero]
        rfl

/-- A cipher state as a matrix over the field of R110. Its type is Mathlib's `Matrix`, whose name is the model's own here. -/
noncomputable def fieldMatrix (m : CipherState) := Matrix.of fun r c : Fin 4 => fieldElem m[r][c]

theorem fieldMatrix_injective : Function.Injective fieldMatrix := fun _ _ h =>
  cipherState_ext fun r c => fieldElem_injective (congrFun (congrFun h r) c)

/-- The form of R160 and R163 is the product of matrices. -/
theorem fieldMatrix_mixWith (k m : CipherState) : fieldMatrix (mixWith k m) = fieldMatrix k * fieldMatrix m :=
  Matrix.ext (fieldElem_mixWith k m)

theorem mixWith_mixWith (k k' m : CipherState) : mixWith k (mixWith k' m) = mixWith (mixWith k k') m :=
  fieldMatrix_injective (by simp only [fieldMatrix_mixWith, Matrix.mul_assoc])

/-- The rotations of 1, 0, 0, 0 are the identity matrix. -/
theorem mixWith_rotatedRows_one (m : CipherState) : mixWith (rotatedRows #v[1, 0, 0, 0]) m = m :=
  cipherState_ext fun r c => by rw [getElem_mixWith_rotatedRows]; simp

theorem mixWith_imds_mds : mixWith imds mds = rotatedRows #v[1, 0, 0, 0] := by decide

theorem mixWith_mds_imds : mixWith mds imds = rotatedRows #v[1, 0, 0, 0] := by decide

/-! ### Inverses -/

theorem storeState_loadState (b : Block) : storeState (loadState b) = b := by
  refine Vector.ext fun i hi => ?_
  have h := getElem_storeState (loadState b) ⟨i % 4, by omega⟩ ⟨i / 4, by omega⟩
  rw [getElem_loadState] at h
  simpa only [Nat.mod_add_div] using h

theorem loadState_storeState (m : CipherState) : loadState (storeState m) = m :=
  cipherState_ext fun r c => by rw [getElem_loadState, getElem_storeState]

theorem addRoundKey_addRoundKey (rk : Schedule) (round : Fin 11) (m : CipherState) :
    addRoundKey rk round (addRoundKey rk round m) = m :=
  cipherState_ext fun r c => by
    rw [getElem_addRoundKey, getElem_addRoundKey, BitVec.xor_assoc, BitVec.xor_self, BitVec.xor_zero]

theorem invShiftRows_shiftRows (m : CipherState) : invShiftRows (shiftRows m) = m :=
  cipherState_ext fun r c => by simp only [getElem_invShiftRows, getElem_shiftRows, sub_add_cancel]

theorem shiftRows_invShiftRows (m : CipherState) : shiftRows (invShiftRows m) = m :=
  cipherState_ext fun r c => by simp only [getElem_shiftRows, getElem_invShiftRows, add_sub_cancel_right]

theorem invMixColumns_mixColumns (m : CipherState) : invMixColumns (mixColumns m) = m := by
  rw [invMixColumns, mixColumns, mixWith_mixWith, mixWith_imds_mds, mixWith_rotatedRows_one]

theorem mixColumns_invMixColumns (m : CipherState) : mixColumns (invMixColumns m) = m := by
  rw [invMixColumns, mixColumns, mixWith_mixWith, mixWith_mds_imds, mixWith_rotatedRows_one]

theorem subBytes_subBytes {t u : Table} (h : ∀ x, atByte u (atByte t x) = x) (m : CipherState) :
    subBytes u (subBytes t m) = m :=
  cipherState_ext fun r c => by rw [getElem_subBytes, getElem_subBytes, h]

end Sys2Proof.Machine

namespace Sys2Proof.Proofs

open Sys2Proof.Machine

/-- Settles O42: each pair entry by entry, the mixes by the product of their coefficient matrices. -/
theorem roundFunctionsUndoEachOther : Obligations.RoundFunctionsUndoEachOther := fun m b rk round =>
  ⟨storeState_loadState b, loadState_storeState m, addRoundKey_addRoundKey rk round m, invShiftRows_shiftRows m,
    shiftRows_invShiftRows m, invMixColumns_mixColumns m, mixColumns_invMixColumns m, fun _ ht =>
      ⟨subBytes_subBytes (atByte_invSbox_atByte ht) m, subBytes_subBytes (atByte_atByte_invSbox ht) m⟩⟩

end Sys2Proof.Proofs
end

section
/-! The block operations of 43_aes128.md R164 and R165: the states between the rounds, entry by entry, and each operation as
the other's inverse, because a round of one undoes a round of the other (R168). -/

namespace Sys2Proof.Machine

/-! ### The states between the rounds -/

section

variable (t : Table) (rk : Schedule) (b : Block)

/-- Round `n + 1` of R164: the tenth has no column mix. -/
def encStep (n : Nat) (m : CipherState) : CipherState :=
  if n = 9 then addRoundKey rk 10 (shiftRows (subBytes t m)) else encRound t rk m (Fin.ofNat 11 (n + 1))

/-- The state after `n` rounds of R164. -/
def encState : Nat → CipherState
  | 0 => addRoundKey rk 0 (loadState b)
  | n + 1 => encStep t rk n (encState n)

theorem encStep_of_lt {n : Nat} (hn : n < 9) (m : CipherState) :
    encStep t rk n m = encRound t rk m ⟨n + 1, by omega⟩ := by
  rw [encStep, if_neg hn.ne]
  exact congrArg _ (Fin.ext (Nat.mod_eq_of_lt (by omega)))

theorem encStep_nine (m : CipherState) : encStep t rk 9 m = addRoundKey rk 10 (shiftRows (subBytes t m)) := if_pos rfl

theorem encryptBlock_eq_storeState : encryptBlock t rk b = storeState (encState t rk b 10) := by
  rw [encState, encStep_nine, encryptBlock]
  rfl

/-- Round `n + 1` of R165, with round key `9 - n`: the tenth has no column mix. -/
def decStep (n : Nat) (m : CipherState) : CipherState :=
  if n = 9 then addRoundKey rk 0 (subBytes t (invShiftRows m)) else decRound t rk m (Fin.ofNat 11 (9 - n))

/-- The state after `n` rounds of R165. -/
def decState : Nat → CipherState
  | 0 => addRoundKey rk 10 (loadState b)
  | n + 1 => decStep t rk n (decState n)

theorem decStep_of_lt {n : Nat} (hn : n < 9) (m : CipherState) :
    decStep t rk n m = decRound t rk m ⟨9 - n, by omega⟩ := by
  rw [decStep, if_neg hn.ne]
  exact congrArg _ (Fin.ext (Nat.mod_eq_of_lt (by omega)))

theorem decStep_nine (m : CipherState) : decStep t rk 9 m = addRoundKey rk 0 (subBytes t (invShiftRows m)) := if_pos rfl

theorem decryptBlock_eq_storeState : decryptBlock t rk b = storeState (decState t rk b 10) := by
  rw [decState, decStep_nine, decryptBlock]
  rfl

/-- An entry after a round of R164. -/
theorem getElem_encRound (m : CipherState) (round : Fin 11) (r c : Fin 4) :
    (encRound t rk m round)[r][c] =
      multiply 2 (atByte t m[r][c + r]) ^^^ multiply 3 (atByte t m[r + 1][c + (r + 1)]) ^^^
        atByte t m[r + 2][c + (r + 2)] ^^^ atByte t m[r + 3][c + (r + 3)] ^^^ rk[4 * round.val + c.val][r] := by
  simp only [encRound, mixColumns, mds, getElem_addRoundKey, getElem_mixWith_rotatedRows, getElem_shiftRows,
    getElem_subBytes]
  exact congrArg₂ (_ ^^^ _ ^^^ · ^^^ · ^^^ _) (one_multiply _) (one_multiply _)

/-- An entry after a round of R165. -/
theorem getElem_decRound (m : CipherState) (round : Fin 11) (r c : Fin 4) :
    (decRound t rk m round)[r][c] =
      multiply 0x0E (atByte t m[r][c - r] ^^^ rk[4 * round.val + c.val][r]) ^^^
        multiply 0x0B (atByte t m[r + 1][c - (r + 1)] ^^^ rk[4 * round.val + c.val][r + 1]) ^^^
        multiply 0x0D (atByte t m[r + 2][c - (r + 2)] ^^^ rk[4 * round.val + c.val][r + 2]) ^^^
        multiply 0x09 (atByte t m[r + 3][c - (r + 3)] ^^^ rk[4 * round.val + c.val][r + 3]) := by
  simp only [decRound, invMixColumns, imds, getElem_mixWith_rotatedRows, getElem_addRoundKey, getElem_subBytes,
    getElem_invShiftRows]
  rfl

end

/-! ### A round of one operation undoes a round of the other -/

/-- Rounds that undo rounds one by one, the last first, undo them all. -/
theorem foldl_reverse_foldl {α β : Type} {f g : α → β → α} {h : α → α} (hfg : ∀ m r, g (h (f m r)) r = h m) (l : List β)
    (m : α) : l.reverse.foldl g (h (l.foldl f m)) = h m := by
  induction l generalizing m with
  | nil => rfl
  | cons r l ih => rw [List.reverse_cons, List.foldl_concat, List.foldl_cons, ih, hfg]

section

variable {t u : Table} (rk : Schedule) (b : Block)

theorem decRound_encRound (h : ∀ x, atByte u (atByte t x) = x) (m : CipherState) (round : Fin 11) :
    decRound u rk (shiftRows (subBytes t (encRound t rk m round))) round = shiftRows (subBytes t m) := by
  rw [decRound, invShiftRows_shiftRows, subBytes_subBytes h, encRound, addRoundKey_addRoundKey, invMixColumns_mixColumns]

theorem encRound_decRound (h : ∀ x, atByte t (atByte u x) = x) (m : CipherState) (round : Fin 11) :
    encRound t rk (subBytes u (invShiftRows (decRound u rk m round))) round = subBytes u (invShiftRows m) := by
  rw [encRound, subBytes_subBytes h, shiftRows_invShiftRows, decRound, mixColumns_invMixColumns, addRoundKey_addRoundKey]

theorem decryptBlock_encryptBlock (h : ∀ x, atByte u (atByte t x) = x) :
    decryptBlock u rk (encryptBlock t rk b) = b := by
  have rounds (m : CipherState) : [9, 8, 7, 6, 5, 4, 3, 2, 1].foldl (decRound u rk)
      (shiftRows (subBytes t ([1, 2, 3, 4, 5, 6, 7, 8, 9].foldl (encRound t rk) m))) = shiftRows (subBytes t m) :=
    foldl_reverse_foldl (h := fun m => shiftRows (subBytes t m)) (decRound_encRound rk h) [1, 2, 3, 4, 5, 6, 7, 8, 9] m
  rw [decryptBlock, encryptBlock, loadState_storeState, addRoundKey_addRoundKey, rounds, invShiftRows_shiftRows,
    subBytes_subBytes h, addRoundKey_addRoundKey, storeState_loadState]

theorem encryptBlock_decryptBlock (h : ∀ x, atByte t (atByte u x) = x) :
    encryptBlock t rk (decryptBlock u rk b) = b := by
  have rounds (m : CipherState) : [1, 2, 3, 4, 5, 6, 7, 8, 9].foldl (encRound t rk)
      (subBytes u (invShiftRows ([9, 8, 7, 6, 5, 4, 3, 2, 1].foldl (decRound u rk) m))) = subBytes u (invShiftRows m) :=
    foldl_reverse_foldl (h := fun m => subBytes u (invShiftRows m)) (encRound_decRound rk h) [9, 8, 7, 6, 5, 4, 3, 2, 1] m
  rw [encryptBlock, decryptBlock, loadState_storeState, addRoundKey_addRoundKey, rounds, subBytes_subBytes h,
    shiftRows_invShiftRows, addRoundKey_addRoundKey, storeState_loadState]

end

end Sys2Proof.Machine

namespace Sys2Proof.Proofs

open Sys2Proof.Machine

/-- Settles O40: the states after 0 to 10 rounds, each from the one before by `getElem_encRound`. -/
theorem encryptionFollowsTheRounds : Obligations.EncryptionFollowsTheRounds := by
  refine fun t rk b => ⟨fun n => encState t rk b n.val, fun r c => ?first, fun n r c => ?round, fun r c => ?last,
    fun r c => ?output⟩
  case first => exact (getElem_addRoundKey_zero ..).trans (by rw [getElem_loadState])
  case round => exact (congrArg (·[r][c]) (encStep_of_lt t rk n.isLt _)).trans (getElem_encRound ..)
  case last => exact (getElem_addRoundKey_ten ..).trans (by rw [getElem_shiftRows, getElem_subBytes]; rfl)
  case output => rw [encryptBlock_eq_storeState, getElem_storeState]; rfl

/-- Settles O41: the states after 0 to 10 rounds, each from the one before by `getElem_decRound`. -/
theorem decryptionFollowsTheRounds : Obligations.DecryptionFollowsTheRounds := by
  refine fun t rk b => ⟨fun n => decState t rk b n.val, fun r c => ?first, fun n r c => ?round, fun r c => ?last,
    fun r c => ?output⟩
  case first => exact (getElem_addRoundKey_ten ..).trans (by rw [getElem_loadState])
  case round => exact (congrArg (·[r][c]) (decStep_of_lt t rk n.isLt _)).trans (getElem_decRound ..)
  case last => exact (getElem_addRoundKey_zero ..).trans (by rw [getElem_subBytes, getElem_invShiftRows]; rfl)
  case output => rw [decryptBlock_eq_storeState, getElem_storeState]; rfl

/-- Settles O43: the engine's two tables are each other's inverse, and then so are the two block operations. -/
theorem decUndoesEnc : Obligations.DecUndoesEnc := by
  intro s hs hv hj hb
  obtain ⟨hbij, heinv, -⟩ := hs.2 hv
  have ht : isBijective s.esbox = true := hbij.symm.trans hj
  refine ⟨⟨_, _, execEnc_of_ready hv hb, execDec_of_ready hv hb hj, ?_⟩,
    ⟨_, _, execDec_of_ready hv hb hj, execEnc_of_ready hv hb, ?_⟩⟩
  · exact decryptBlock_encryptBlock s.rk s.blk fun x => heinv ▸ atByte_invSbox_atByte ht x
  · exact encryptBlock_decryptBlock s.rk s.blk fun x => heinv ▸ atByte_atByte_invSbox ht x

end Sys2Proof.Proofs
end

section
/-! The transform of 44_fwht.md by its recursion on halves: each entry is the signed sum of R190, because the number of
common bits of two indices is a recursion on the same halves; the transform is linear, so applied twice it multiplies by its
length (R192); and the half-open range of the entries doubles with each stage, so `FWHT` stores the exact transform (R191). -/

namespace Sys2Proof.Machine

open Sys2Proof.Safety

/-! ### Common bits of two indices -/

/-- The number of the `k` low bits set in both indices: the exponent of R190. -/
def commonBits (k u x : Nat) : Nat := (List.range k).countP fun i => u.testBit i && x.testBit i

theorem commonBits_eight (u x : Nat) : commonBits 8 u x = popcount (nthByte u &&& nthByte x) := by
  refine List.countP_congr fun i hi => ?_
  have hi : i < 8 := List.mem_range.mp hi
  rw [nthByte, nthByte, BitVec.getLsbD_and, BitVec.getLsbD_ofNat, BitVec.getLsbD_ofNat, decide_eq_true hi,
    Bool.true_and, Bool.true_and]

theorem testBit_top {k u : Nat} (hu : u < 2 ^ k) (c : Bool) : (2 ^ k * c.toNat + u).testBit k = c := by
  rw [Nat.testBit_two_pow_mul_add _ hu, if_neg (Nat.lt_irrefl k), Nat.sub_self]
  cases c <;> rfl

/-- The top bits `c` and `d` of two indices add a common bit if both are set. -/
theorem commonBits_succ {k u x : Nat} (hu : u < 2 ^ k) (hx : x < 2 ^ k) (c d : Bool) :
    commonBits (k + 1) (2 ^ k * c.toNat + u) (2 ^ k * d.toNat + x) = commonBits k u x + (c && d).toNat := by
  have low : (List.range k).countP (fun i => (2 ^ k * c.toNat + u).testBit i && (2 ^ k * d.toNat + x).testBit i) =
      commonBits k u x :=
    List.countP_congr fun i hi => by
      simp [Nat.testBit_two_pow_mul_add, hu, hx, List.mem_range.mp hi]
  rw [commonBits, List.range_succ, List.countP_append, low, List.countP_singleton, testBit_top hu, testBit_top hx]
  cases c && d <;> rfl

/-! ### Entries of the transform -/

theorem getD_zipWith {f : Int → Int → Int} {a b : List Int} {u : Nat} (ha : u < a.length) (hb : u < b.length) :
    (List.zipWith f a b).getD u 0 = f (a.getD u 0) (b.getD u 0) := by
  rw [List.getD_eq_getElem _ _ ha, List.getD_eq_getElem _ _ hb, List.getD_eq_getElem _ _ (by simp [ha, hb]),
    List.getElem_zipWith]

theorem getD_take {l : List Int} {n x : Nat} (hx : x < n) : (l.take n).getD x 0 = l.getD x 0 := by
  simp [List.getD_eq_getElem?_getD, hx]

theorem getD_drop (l : List Int) (n x : Nat) : (l.drop n).getD x 0 = l.getD (n + x) 0 := by
  simp [List.getD_eq_getElem?_getD]

/-- The halves of the transform are the sum and the difference of the halves' transforms. -/
theorem halves_wht_succ {k : Nat} {l : List Int} (hl : l.length = 2 ^ (k + 1)) :
    (wht (k + 1) l).take (2 ^ k) = List.zipWith (· + ·) (wht k (l.take (2 ^ k))) (wht k (l.drop (2 ^ k))) ∧
      (wht (k + 1) l).drop (2 ^ k) = List.zipWith (· - ·) (wht k (l.take (2 ^ k))) (wht k (l.drop (2 ^ k))) := by
  have hsum : (List.zipWith (· + ·) (wht k (l.take (2 ^ k))) (wht k (l.drop (2 ^ k)))).length = 2 ^ k := by
    rw [List.length_zipWith, length_wht k _ (length_take_half hl), length_wht k _ (length_drop_half hl), Nat.min_self]
  exact ⟨List.take_left' hsum, List.drop_left' hsum⟩

/-- An entry of the transform from the entries of the halves' transforms: the top bit `c` of its index is the sign. -/
theorem getD_wht_succ {k u : Nat} {l : List Int} (hl : l.length = 2 ^ (k + 1)) (hu : u < 2 ^ k) (c : Bool) :
    (wht (k + 1) l).getD (2 ^ k * c.toNat + u) 0 =
      (wht k (l.take (2 ^ k))).getD u 0 + (wht k (l.drop (2 ^ k))).getD u 0 * (-1) ^ c.toNat := by
  have hlo := hu.trans_eq (length_wht k _ (length_take_half hl)).symm
  have hhi := hu.trans_eq (length_wht k _ (length_drop_half hl)).symm
  obtain ⟨htake, hdrop⟩ := halves_wht_succ hl
  cases c with
  | false =>
    rw [Bool.toNat_false, Nat.mul_zero, Nat.zero_add, ← getD_take hu, htake, getD_zipWith hlo hhi, pow_zero, mul_one]
  | true =>
    rw [Bool.toNat_true, Nat.mul_one, ← getD_drop, hdrop, getD_zipWith hlo hhi, pow_one, mul_neg_one, sub_eq_add_neg]

/-- The signed sum over all indices is the signed sums over the two halves, the upper one with the sign of `c`. -/
theorem sum_commonBits_succ {k u : Nat} (l : List Int) (hu : u < 2 ^ k) (c : Bool) :
    ∑ x ∈ Finset.range (2 ^ (k + 1)), l.getD x 0 * (-1) ^ commonBits (k + 1) (2 ^ k * c.toNat + u) x =
      ∑ x ∈ Finset.range (2 ^ k), (l.take (2 ^ k)).getD x 0 * (-1) ^ commonBits k u x +
        (∑ x ∈ Finset.range (2 ^ k), (l.drop (2 ^ k)).getD x 0 * (-1) ^ commonBits k u x) * (-1) ^ c.toNat := by
  rw [pow_succ 2 k, mul_two, Finset.sum_range_add, Finset.sum_mul]
  congr 1 <;> refine Finset.sum_congr rfl fun x hx => ?_
  · have e : commonBits (k + 1) (2 ^ k * c.toNat + u) x = commonBits k u x := by
      simpa using commonBits_succ hu (Finset.mem_range.mp hx) c false
    rw [e, getD_take (Finset.mem_range.mp hx)]
  · have e : commonBits (k + 1) (2 ^ k * c.toNat + u) (2 ^ k + x) = commonBits k u x + c.toNat := by
      simpa using commonBits_succ hu (Finset.mem_range.mp hx) c true
    rw [e, getD_drop, pow_add, mul_assoc]

/-- The closed form of the recursion on halves. -/
theorem getD_wht {k u : Nat} {l : List Int} (hl : l.length = 2 ^ k) (hu : u < 2 ^ k) :
    (wht k l).getD u 0 = ∑ x ∈ Finset.range (2 ^ k), l.getD x 0 * (-1) ^ commonBits k u x := by
  induction k generalizing l u with
  | zero =>
    obtain rfl : u = 0 := Nat.lt_one_iff.mp hu
    simp [wht, commonBits]
  | succ k ih =>
    obtain ⟨c, v, hv, rfl⟩ : ∃ (c : Bool) (v : Nat), v < 2 ^ k ∧ u = 2 ^ k * c.toNat + v := by
      by_cases h : u < 2 ^ k
      · exact ⟨false, u, h, by simp⟩
      · exact ⟨true, u - 2 ^ k, by omega, by simp; omega⟩
    rw [getD_wht_succ hl hv, ih (length_take_half hl) hv, ih (length_drop_half hl) hv, sum_commonBits_succ l hv]

/-- The closed form of R190. -/
theorem getD_fwht {l : List Int} (hl : l.length = 256) {u : Nat} (hu : u < 256) :
    (fwht l).getD u 0 = ∑ x ∈ Finset.range 256, l.getD x 0 * (-1) ^ popcount (nthByte u &&& nthByte x) := by
  simp only [fwht_eq_wht l hl, ← commonBits_eight]
  exact getD_wht (k := 8) hl hu

/-! ### The transform applied twice -/

/-- Two entrywise combinations that commute on integers commute on lists. -/
theorem zipWith_zipWith_comm {f g : Int → Int → Int} (h : ∀ a b c d, g (f a b) (f c d) = f (g a c) (g b d))
    (a b c d : List Int) :
    List.zipWith g (List.zipWith f a b) (List.zipWith f c d) =
      List.zipWith f (List.zipWith g a c) (List.zipWith g b d) :=
  List.ext_getElem (by simp only [List.length_zipWith]; omega) fun i _ _ => by simp only [List.getElem_zipWith, h]

/-- The transform is linear: it commutes with each entrywise combination that sums and differences commute with. -/
theorem wht_zipWith {f : Int → Int → Int} (hadd : ∀ a b c d, f a b + f c d = f (a + c) (b + d))
    (hsub : ∀ a b c d, f a b - f c d = f (a - c) (b - d)) (k : Nat) {a b : List Int} (ha : a.length = 2 ^ k)
    (hb : b.length = 2 ^ k) : wht k (List.zipWith f a b) = List.zipWith f (wht k a) (wht k b) := by
  induction k generalizing a b with
  | zero => rfl
  | succ k ih =>
    have hlo := length_wht k _ (length_take_half ha)
    have hhi := length_wht k _ (length_drop_half ha)
    have hlo' := length_wht k _ (length_take_half hb)
    have hhi' := length_wht k _ (length_drop_half hb)
    simp only [wht]
    rw [List.take_zipWith, List.drop_zipWith, ih (length_take_half ha) (length_take_half hb),
      ih (length_drop_half ha) (length_drop_half hb), zipWith_zipWith_comm hadd, zipWith_zipWith_comm hsub,
      List.zipWith_append (by simp only [List.length_zipWith, hlo, hhi, hlo', hhi'])]

/-- The sum and the difference of a sum and a difference are twice the two lists. -/
theorem zipWith_sum_difference {a b : List Int} (h : a.length = b.length) :
    List.zipWith (· + ·) (List.zipWith (· + ·) a b) (List.zipWith (· - ·) a b) = a.map (2 * ·) ∧
      List.zipWith (· - ·) (List.zipWith (· + ·) a b) (List.zipWith (· - ·) a b) = b.map (2 * ·) := by
  constructor <;> refine List.ext_getElem (by simp [h]) fun i _ _ => ?_ <;>
    simp only [List.getElem_zipWith, List.getElem_map] <;> ring

theorem wht_wht (k : Nat) {l : List Int} (hl : l.length = 2 ^ k) : wht k (wht k l) = l.map (2 ^ k * ·) := by
  induction k generalizing l with
  | zero => simp [wht]
  | succ k ih =>
    have hlo := length_wht k _ (length_take_half hl)
    have hhi := length_wht k _ (length_drop_half hl)
    obtain ⟨htake, hdrop⟩ := halves_wht_succ hl
    obtain ⟨hfst, hsnd⟩ := zipWith_sum_difference (a := (l.take (2 ^ k)).map (2 ^ k * ·))
      (b := (l.drop (2 ^ k)).map (2 ^ k * ·))
      (by rw [List.length_map, List.length_map, length_take_half hl, length_drop_half hl])
    rw [wht, htake, hdrop, wht_zipWith add_add_add_comm add_sub_add_comm k hlo hhi,
      wht_zipWith sub_add_sub_comm sub_sub_sub_comm k hlo hhi, ih (length_take_half hl), ih (length_drop_half hl), hfst,
      hsnd, List.map_map, List.map_map, ← List.map_append, List.take_append_drop]
    exact List.map_congr_left fun x _ => by simp only [Function.comp_apply]; ring

/-- The transform applied twice multiplies by 256 (R192). -/
theorem fwht_fwht {l : List Int} (hl : l.length = 256) : fwht (fwht l) = l.map (256 * ·) := by
  rw [fwht_eq_wht _ (length_fwht l hl), fwht_eq_wht l hl]
  exact wht_wht 8 hl

/-! ### The command -/

/-- Each stage doubles the half-open range of the entries. -/
theorem range_of_mem_wht {k : Nat} {l : List Int} {m : Int} (hl : ∀ x ∈ l, -m ≤ x ∧ x < m) :
    ∀ y ∈ wht k l, -(2 ^ k * m) ≤ y ∧ y < 2 ^ k * m := by
  induction k generalizing l with
  | zero => simpa [wht] using hl
  | succ k ih =>
    intro y hy
    obtain ⟨a, ha, b, hb, e⟩ := mem_wht_succ hy
    have hlo := ih (fun x hx => hl x (List.mem_of_mem_take hx)) a ha
    have hhi := ih (fun x hx => hl x (List.mem_of_mem_drop hx)) b hb
    rw [pow_succ', mul_assoc]
    omega

@[simp] theorem length_workInts (w : WorkVector) : (workInts w).length = 256 := by simp [workInts]

theorem forall_mem_workInts (w : WorkVector) (p : Int → Prop) :
    (∀ x ∈ workInts w, p x) ↔ ∀ i : Fin 256, p w[i].toInt := by
  rw [workInts, List.forall_mem_map, Fin.forall_iff]
  simp only [Vector.mem_toList_iff]
  exact Vector.forall_mem_iff_forall_getElem

theorem workInRange_iff (w : WorkVector) :
    workInRange w = true ↔ ∀ i : Fin 256, -8388608 ≤ w[i].toInt ∧ w[i].toInt ≤ 8388607 := by
  rw [workInRange, List.all_eq_true]
  refine (forall_mem_workInts w _).trans (forall_congr' fun i => ?_)
  rw [Bool.and_eq_true, decide_eq_true_iff, decide_eq_true_iff]
  rfl

theorem workInts_tabulate (f : Fin 256 → Word) : workInts (tabulate f) = List.ofFn fun i => (f i).toInt := by
  rw [workInts, toList_tabulate, List.map_ofFn]
  rfl

/-- With every input in range no entry wraps (R191): the range of 24 bits has doubled eight times. -/
theorem workInts_workTransform {w : WorkVector} (h : workInRange w = true) :
    workInts (workTransform w) = fwht (workInts w) := by
  have hlen := length_fwht _ (length_workInts w)
  have inputs : ∀ x ∈ workInts w, -8388608 ≤ x ∧ x < 8388608 :=
    (forall_mem_workInts w _).mpr fun i => ((workInRange_iff w).mp h i).imp_right Int.lt_add_one_of_le
  have outputs : ∀ y ∈ fwht (workInts w), -(2 ^ 8 * 8388608) ≤ y ∧ y < 2 ^ 8 * 8388608 :=
    fwht_eq_wht _ (length_workInts w) ▸ range_of_mem_wht inputs
  refine (workInts_tabulate _).trans (List.ext_getElem (by rw [List.length_ofFn, hlen]) fun i _ hi => ?_)
  obtain ⟨hlo, hhi⟩ := outputs _ (List.getElem_mem hi)
  rw [List.getElem_ofFn, List.getD_eq_getElem _ _ hi]
  exact BitVec.toInt_ofInt_eq_self (by decide) hlo hhi

theorem execFwht_of_inRange {s : State} (h : workInRange s.w = true) :
    exec .fwht s = .next { s with w := workTransform s.w, err := 0 } :=
  if_pos h

theorem execFwht_of_outOfRange {s : State} (h : ¬ workInRange s.w = true) : exec .fwht s = .next (failedWith 8 s) := by
  rw [exec, execFwht, if_neg h, raise_eq_failedWith]
  rfl

end Sys2Proof.Machine

namespace Sys2Proof.Proofs

open Sys2Proof.Machine

/-- Settles O45: the closed form, by the recursion on halves. -/
theorem fwhtIsTheSignedSum : Obligations.FwhtIsTheSignedSum :=
  fun a ha => ⟨length_fwht a ha, fun _ => getD_fwht ha⟩

/-- Settles O46: the transform applied twice and its sum of squares, both by the recursion on halves. -/
theorem fwhtTwiceScalesBy256 : Obligations.FwhtTwiceScalesBy256 :=
  fun a ha => ⟨fwht_fwht ha, sum_squares_fwht a ha⟩

/-- Settles O47: in range no entry of the transform wraps, and out of range the command fails. -/
theorem fwhtCommandIsExact : Obligations.FwhtCommandIsExact := by
  refine ⟨rfl, fun s => ⟨fun h => ?inRange, fun ⟨i, hi⟩ => execFwht_of_outOfRange fun h => ?outOfRange⟩⟩
  case inRange =>
    have h := (workInRange_iff s.w).mpr h
    exact ⟨_, execFwht_of_inRange h, workInts_workTransform h⟩
  case outOfRange =>
    have := (workInRange_iff s.w).mp h i
    omega

end Sys2Proof.Proofs
end

section
/-! Numbers 0..255 and bytes: a list, a sum or a count over all bytes as the spec's range 0..255; the bytes that stand for
masks; and the extremes of a list as extremes of the set of its members. -/

namespace Sys2Proof.Machine

open Sys2Proof.Safety

/-! ### All bytes and the range 0..255 -/

@[simp] theorem nthByte_toNat (b : Byte) : nthByte b.toNat = b := BitVec.ofNat_toNat ..

theorem getD_map_allBytes {α : Type} (f : Byte → α) (d : α) {u : Nat} (hu : u < 256) :
    (allBytes.map f).getD u d = f (nthByte u) := by
  simp [allBytes, List.getD_eq_getElem?_getD, hu, nthByte]

/-- A list of 256 entries is its entries at the bytes in ascending order. -/
theorem eq_map_allBytes {α : Type} {l : List α} (hl : l.length = 256) (d : α) :
    l = allBytes.map fun b => l.getD b.toNat d := by
  refine List.ext_getElem (by simp [hl]) fun u hu _ => ?_
  rw [hl] at hu
  simp [allBytes, Nat.mod_eq_of_lt hu, hl, hu]

/-- A finite sum over a range is a sum over a list by definition. -/
theorem sum_map_range {M : Type} [AddCommMonoid M] (f : Nat → M) (n : Nat) :
    ((List.range n).map f).sum = ∑ x ∈ Finset.range n, f x := rfl

theorem sum_map_allBytes_eq_sum_range {M : Type} [AddCommMonoid M] (f : Byte → M) :
    (allBytes.map f).sum = ∑ x ∈ Finset.range 256, f (nthByte x) := by
  rw [allBytes, List.map_map, sum_map_range]
  rfl

theorem sum_range_nthByte {M : Type} [AddCommMonoid M] (f : Byte → M) :
    ∑ x ∈ Finset.range 256, f (nthByte x) = ∑ b : Byte, f b := by
  rw [← sum_map_allBytes_eq_sum_range, ← List.sum_toFinset f nodup_allBytes, toFinset_allBytes]

theorem countP_allBytes_eq_card {p : Byte → Bool} :
    allBytes.countP p = ((Finset.range 256).filter fun x => p (nthByte x) = true).card := by
  rw [allBytes, List.countP_map, ← Nat.count_eq_card_filter_range, Nat.count]
  exact List.countP_congr fun _ _ => decide_eq_true_iff.symm

theorem card_filter_nthByte (p : Byte → Prop) [DecidablePred p] :
    ((Finset.range 256).filter fun x => p (nthByte x)).card = (Finset.univ.filter p).card := by
  rw [Finset.card_filter, Finset.card_filter, ← sum_range_nthByte]

theorem forall_nthByte {p : Byte → Prop} : (∀ x, x < 256 → p (nthByte x)) ↔ ∀ b, p b :=
  ⟨fun h b => nthByte_toNat b ▸ h b.toNat b.isLt, fun h x _ => h (nthByte x)⟩

theorem drop_one_map_allBytes {α : Type} (f : Byte → α) : (allBytes.map f).drop 1 = nonzeroBytes.map f := by
  have h : (List.range 256).drop 1 = List.range' 1 255 := by rw [List.range_eq_range', List.drop_range']
  rw [allBytes, nonzeroBytes, ← List.map_drop, ← List.map_drop, h]

/-! ### Masks -/

theorem nonzeroBytes_ne_nil : nonzeroBytes ≠ [] := by simp [nonzeroBytes]

theorem exists_mem_nonzeroBytes {p : Byte → Prop} :
    (∃ d ∈ nonzeroBytes, p d) ↔ ∃ v, 1 ≤ v ∧ v ≤ 255 ∧ p (nthByte v) := by
  simp only [nonzeroBytes, List.mem_map, List.mem_range'_1, exists_exists_and_eq_and, Nat.reduceAdd, Nat.lt_succ_iff]
  exact exists_congr fun v => and_assoc

theorem exists_mem_allBytes {p : Byte → Prop} : (∃ d ∈ allBytes, p d) ↔ ∃ x, x ≤ 255 ∧ p (nthByte x) := by
  simp only [allBytes, List.mem_map, List.mem_range, exists_exists_and_eq_and, Nat.lt_succ_iff]
  rfl

theorem bitMask_eq_nthByte (i : Nat) : bitMask i = nthByte (2 ^ i) :=
  BitVec.eq_of_toNat_eq (by rw [bitMask, nthByte, BitVec.toNat_twoPow, BitVec.toNat_ofNat])

theorem mem_bitPairs {p : Nat × Nat} : p ∈ bitPairs ↔ p.1 < p.2 ∧ p.2 < 8 := by
  simp only [bitPairs, List.mem_flatMap, List.mem_range, List.mem_map, List.mem_range'_1]
  constructor
  · rintro ⟨j, hj, k, hk, rfl⟩
    dsimp only; omega
  · exact fun ⟨hjk, hk⟩ => ⟨p.1, by omega, p.2, by omega, rfl⟩

/-- The mask of two different bits is the sum of theirs (R205). -/
theorem pairMask_eq_nthByte {p : Nat × Nat} (hp : p ∈ bitPairs) : pairMask p = nthByte (2 ^ p.1 + 2 ^ p.2) :=
  (by decide : ∀ p ∈ bitPairs, pairMask p = nthByte (2 ^ p.1 + 2 ^ p.2)) p hp

/-- A sum over the pairs of bits, the greater bit first (R206). -/
theorem sum_map_bitPairs (f : Nat × Nat → Nat) :
    (bitPairs.map f).sum = ∑ k ∈ Finset.range 8, ∑ j ∈ Finset.range k, f (j, k) := by
  have reorder : bitPairs.Perm ((List.range 8).flatMap fun k => (List.range k).map fun j => (j, k)) := by decide
  rw [(reorder.map f).sum_eq, List.map_flatMap, List.flatMap_def, List.sum_flatten, List.map_map]
  simp only [List.map_map, Function.comp_def, sum_map_range]

/-! ### Extremes of a list -/

theorem isLeast_minNat_map {α : Type} {l : List α} (hl : l ≠ []) (f : α → Nat) :
    IsLeast { n | ∃ a ∈ l, n = f a } (minNat (l.map f)) := by
  obtain ⟨a, l, rfl⟩ := List.exists_cons_of_ne_nil hl
  obtain ⟨hmem, hle⟩ := List.min?_eq_some_iff.mp (List.min?_cons' (x := f a) (xs := l.map f))
  obtain ⟨b, hb, e⟩ := List.mem_map.mp (List.map_cons ▸ hmem)
  exact ⟨⟨b, hb, e.symm⟩, fun n ⟨b, hb, e⟩ => hle n (e ▸ List.mem_map_of_mem hb)⟩

theorem isGreatest_maxNat_map {α : Type} {l : List α} (hl : l ≠ []) (f : α → Nat) :
    IsGreatest { n | ∃ a ∈ l, n = f a } (maxNat (l.map f)) := by
  have bound {a : α} (ha : a ∈ l) : f a ≤ maxNat (l.map f) := le_maxNat (List.mem_map_of_mem ha)
  refine ⟨(maxNat_mem (l.map f)).elim (fun zero => ?_) fun hmem => ?_, fun n ⟨a, ha, e⟩ => e ▸ bound ha⟩
  · obtain ⟨a, ha⟩ := List.exists_mem_of_ne_nil l hl
    exact ⟨a, ha, le_antisymm (zero ▸ Nat.zero_le _) (bound ha)⟩
  · obtain ⟨a, ha, e⟩ := List.mem_map.mp hmem
    exact ⟨a, ha, e.symm⟩

theorem isGreatest_maxInt_map {α : Type} {l : List α} (hl : l ≠ []) (f : α → Int) :
    IsGreatest { n | ∃ a ∈ l, n = f a } (maxInt (l.map f)) := by
  obtain ⟨a, ha, e⟩ := List.mem_map.mp (maxInt_mem (List.map_eq_nil_iff.not.mpr hl : l.map f ≠ []))
  exact ⟨⟨a, ha, e.symm⟩, fun n ⟨b, hb, e⟩ => e ▸ le_maxInt (List.mem_map_of_mem hb)⟩

/-- The largest of the largest values of the rows is the largest value in any row. -/
theorem isGreatest_maxNat_maxNat {α β : Type} {l : List α} {m : List β} (hl : l ≠ []) (hm : m ≠ []) (f : α → β → Nat) :
    IsGreatest { n | ∃ a ∈ l, ∃ b ∈ m, n = f a b } (maxNat (l.map fun a => maxNat (m.map (f a)))) := by
  obtain ⟨⟨a, ha, row⟩, rows_le⟩ := isGreatest_maxNat_map hl fun a => maxNat (m.map (f a))
  obtain ⟨b, hb, entry⟩ := (isGreatest_maxNat_map hm (f a)).1
  refine ⟨⟨a, ha, b, hb, row.trans entry⟩, fun n ⟨c, hc, d, hd, e⟩ => ?_⟩
  exact e ▸ (le_maxNat (List.mem_map_of_mem hd)).trans (rows_le ⟨c, hc, rfl⟩)

theorem maxNat_map_range (f : Nat → Nat) (n : Nat) : maxNat ((List.range n).map f) = (Finset.range n).sup f := by
  refine le_antisymm (maxNat_le <| List.forall_mem_map.mpr fun x hx => ?_) (Finset.sup_le fun x hx => ?_)
  · exact Finset.le_sup (f := f) (Finset.mem_range.mpr (List.mem_range.mp hx))
  · exact le_maxNat (List.mem_map_of_mem (List.mem_range.mpr (Finset.mem_range.mp hx)))

theorem maxNat_map_allBytes (f : Byte → Nat) :
    maxNat (allBytes.map f) = (Finset.range 256).sup fun x => f (nthByte x) := by
  rw [allBytes, List.map_map, maxNat_map_range]
  rfl

end Sys2Proof.Machine
end

section
/-! The Walsh spectrum of 45_metrics.md R201 and R202 as a function on the bytes: the transform of a list indexed by the bytes
is the sum with the signs of the inner products, so the spectrum is the list of the signed sums, and the linear metrics (R203,
R205, R207) are extremes of it. -/

namespace Sys2Proof.Machine

open Sys2Proof.Safety

/-! ### Signs -/

/-- The sign of a bit, +1 for 0 and -1 for 1 (R201). -/
def bitSign (b : Bool) : Int := bif b then -1 else 1

theorem bitSign_xor (a b : Bool) : bitSign (a ^^ b) = bitSign a * bitSign b := by cases a <;> cases b <;> rfl

theorem neg_one_pow_popcount (v : Byte) : (-1 : Int) ^ popcount v = bitSign (parity v) := by
  rw [parity, neg_one_pow_eq_pow_mod_two]
  obtain h | h := Nat.mod_two_eq_zero_or_one (popcount v) <;> rw [h] <;> rfl

/-- The transform of a list indexed by the bytes (R190). -/
theorem fwht_map_allBytes (f : Byte → Int) :
    fwht (allBytes.map f) = allBytes.map fun u => ∑ x : Byte, f x * bitSign (parity (x &&& u)) := by
  have hlen : (allBytes.map f).length = 256 := by simp
  refine (eq_map_allBytes (length_fwht _ hlen) 0).trans (List.map_congr_left fun u _ => ?_)
  rw [getD_fwht hlen u.isLt, ← sum_range_nthByte]
  refine Finset.sum_congr rfl fun x hx => ?_
  rw [getD_map_allBytes f 0 (Finset.mem_range.mp hx), nthByte_toNat, neg_one_pow_popcount, BitVec.and_comm]

/-! ### The spectrum -/

/-- The entry of the truth table of mask `v` at `x` (R201). -/
def maskSign (t : Table) (v x : Byte) : Int := bitSign (parity (atByte t x &&& v))

theorem truthTable_eq_map (t : Table) (v : Byte) : truthTable t v = allBytes.map (maskSign t v) := by
  rw [truthTable, toList_eq_map_allBytes, List.map_map]
  rfl

theorem walshSum_eq (t : Table) (v u : Byte) :
    walshSum t v u = ∑ x : Byte, maskSign t v x * bitSign (parity (x &&& u)) := by
  rw [← sum_range_nthByte]
  exact Finset.sum_congr rfl fun x _ => bitSign_xor _ _

/-- The spectrum is the signed sum at every input mask (R202). -/
theorem walsh_eq_map (t : Table) (v : Byte) : walsh t v = allBytes.map (walshSum t v) := by
  rw [walsh, truthTable_eq_map, fwht_map_allBytes]
  exact List.map_congr_left fun u _ => (walshSum_eq t v u).symm

theorem walshSum_mem_walsh (t : Table) (v u : Byte) : walshSum t v u ∈ walsh t v :=
  walsh_eq_map t v ▸ List.mem_map_of_mem (mem_allBytes u)

theorem sum_squares_walshSum (t : Table) (v : Byte) : ∑ u ∈ Finset.range 256, walshSum t v (nthByte u) ^ 2 = 65536 := by
  rw [← sum_squares_walsh t v, walsh_eq_map, List.map_map, sum_map_allBytes_eq_sum_range]
  exact Finset.sum_congr rfl fun u _ => sq _

/-! ### The linear metrics -/

theorem nlOf_eq (t : Table) (v : Byte) :
    nlOf t v = 128 - ((Finset.range 256).sup fun u => (walshSum t v (nthByte u)).natAbs) / 2 := by
  rw [nlOf, walsh_eq_map, List.map_map, maxNat_map_allBytes]
  rfl

theorem metricLap_eq (t : Table) :
    metricLap t = maxNat (nonzeroBytes.map fun v => maxNat (nonzeroBytes.map fun u => (walshSum t v u).natAbs)) := by
  simp only [metricLap, walsh_eq_map, drop_one_map_allBytes, List.map_map]
  rfl

theorem isLeast_metricNl (t : Table) : IsLeast { n | ∃ i, i < 8 ∧ n = nlOf t (nthByte (2 ^ i)) } (metricNl t) := by
  have h := isLeast_minNat_map (l := List.range 8) (by decide) fun i => nlOf t (bitMask i)
  rw [metricNl]
  simpa only [List.mem_range, bitMask_eq_nthByte] using h

theorem isLeast_metricBicNl (t : Table) :
    IsLeast { n | ∃ j k, j < k ∧ k < 8 ∧ n = nlOf t (nthByte (2 ^ j + 2 ^ k)) } (metricBicNl t) := by
  have h := isLeast_minNat_map (l := bitPairs) (by decide) fun p => nlOf t (nthByte (2 ^ p.1 + 2 ^ p.2))
  rw [metricBicNl, List.map_congr_left fun p hp => by rw [pairMask_eq_nthByte hp]]
  simpa only [mem_bitPairs, Prod.exists, and_assoc] using h

theorem isGreatest_metricLap (t : Table) :
    IsGreatest { n | ∃ v u, 1 ≤ v ∧ v ≤ 255 ∧ 1 ≤ u ∧ u ≤ 255 ∧ n = (walshSum t (nthByte v) (nthByte u)).natAbs }
      (metricLap t) := by
  have h := isGreatest_maxNat_maxNat nonzeroBytes_ne_nil nonzeroBytes_ne_nil fun v u => (walshSum t v u).natAbs
  rw [metricLap_eq]
  simpa only [exists_mem_nonzeroBytes, exists_and_left] using h

end Sys2Proof.Machine

namespace Sys2Proof.Proofs

open Sys2Proof.Machine Sys2Proof.Safety

/-- Settles O49: the spectrum is the list of the signed sums. -/
theorem walshSpectrumIsTheSignedSum : Obligations.WalshSpectrumIsTheSignedSum := fun t v =>
  ⟨length_walsh t v, fun u hu =>
    ⟨by rw [walsh_eq_map, getD_map_allBytes _ 0 hu], even_of_mem_walsh (walshSum_mem_walsh t v _),
      natAbs_le_of_mem_walsh (walshSum_mem_walsh t v _)⟩,
    sum_squares_walshSum t v⟩

/-- Settles O50: each metric is the least or the greatest member of its list. -/
theorem linearMetricsAreSpectrumExtremes : Obligations.LinearMetricsAreSpectrumExtremes := fun t => by
  simp only [← nlOf_eq]
  exact ⟨isLeast_metricNl t, isLeast_metricBicNl t, isGreatest_metricLap t⟩

end Sys2Proof.Proofs
end

section
/-! `CI` of 45_metrics.md R211: the orders at which a spectrum is zero form an initial segment, so the least of the eight
bits' greatest orders is the greatest order for all of them. -/

namespace Sys2Proof.Machine

open Sys2Proof.Safety

/-- The signed sums of output mask `v` are 0 at all input masks of weight 1..k (R211). -/
def ZeroUpTo (t : Table) (v : Byte) (k : Nat) : Prop :=
  ∀ u, 1 ≤ popcount u → popcount u ≤ k → walshSum t v u = 0

theorem ZeroUpTo.mono {t : Table} {v : Byte} {j k : Nat} (hjk : j ≤ k) (h : ZeroUpTo t v k) : ZeroUpTo t v j :=
  fun u hpos hle => h u hpos (hle.trans hjk)

theorem zeroUpTo_zero (t : Table) (v : Byte) : ZeroUpTo t v 0 := fun _ _ _ => by omega

theorem immuneTo_walsh_iff (t : Table) (v : Byte) (k : Nat) : immuneTo (walsh t v) k = true ↔ ZeroUpTo t v k := by
  rw [immuneTo, walsh_eq_map, ← List.map_prod_right_eq_zip, List.all_eq_true, List.forall_mem_map]
  simp only [mem_allBytes, forall_const]
  refine forall_congr' fun u => ?_
  simp only [Bool.or_eq_true, Bool.not_eq_true', Bool.and_eq_false_iff, decide_eq_false_iff_not, beq_iff_eq]
  omega

theorem isGreatest_bitImmunity (t : Table) (i : Nat) :
    IsGreatest { k | k ≤ 8 ∧ ZeroUpTo t (nthByte (2 ^ i)) k } (bitImmunity t i) := by
  have orders (k : Nat) : k ∈ (List.range 9).filter (immuneTo (walsh t (bitMask i))) ↔
      k ≤ 8 ∧ ZeroUpTo t (nthByte (2 ^ i)) k := by
    rw [List.mem_filter, List.mem_range, Nat.lt_succ_iff, immuneTo_walsh_iff, bitMask_eq_nthByte]
  refine ⟨?_, fun k hk => le_maxNat ((orders k).mpr hk)⟩
  rw [bitImmunity]
  obtain zero | listed := maxNat_mem ((List.range 9).filter (immuneTo (walsh t (bitMask i))))
  · exact zero ▸ ⟨Nat.zero_le 8, zeroUpTo_zero t _⟩
  · exact (orders _).mp listed

theorem isGreatest_metricCi (t : Table) :
    IsGreatest { k | k ≤ 8 ∧ ∀ i, i < 8 → ZeroUpTo t (nthByte (2 ^ i)) k } (metricCi t) := by
  obtain ⟨⟨i, hi, attained⟩, least⟩ := isLeast_minNat_map (l := List.range 8) (by decide) (bitImmunity t)
  rw [← metricCi] at attained least
  refine ⟨⟨metricCi_le t, fun j hj => ?_⟩, fun k ⟨hk, zero⟩ => ?_⟩
  · exact (isGreatest_bitImmunity t j).1.2.mono (least ⟨j, List.mem_range.mpr hj, rfl⟩)
  · exact attained ▸ (isGreatest_bitImmunity t i).2 ⟨hk, zero i (List.mem_range.mp hi)⟩

end Sys2Proof.Machine

namespace Sys2Proof.Proofs

open Sys2Proof.Machine Sys2Proof.Safety

/-- Settles O53: the bit that has the least immunity bounds every order, and each bit's spectrum is zero up to it. -/
theorem immunityIsTheLargestZeroOrder : Obligations.ImmunityIsTheLargestZeroOrder := fun t => by
  have h := isGreatest_metricCi t
  simp only [ZeroUpTo, ← forall_nthByte] at h
  simpa only [imp_forall_iff] using h

end Sys2Proof.Proofs
end

section
/-! `TO_NUM` of 45_metrics.md R212: the transform of the autocorrelation sums is the power spectrum, so the power spectrum
transformed again is 256 times the autocorrelation sums. -/

namespace Sys2Proof.Machine

open Sys2Proof.Safety

theorem correlationSum_eq (t : Table) (beta a : Byte) :
    correlationSum t beta a = ∑ x : Byte, maskSign t beta x * maskSign t beta (x ^^^ a) :=
  sum_range_nthByte fun x => maskSign t beta x * maskSign t beta (x ^^^ a)

/-- XORing a byte to the index of a sum over all bytes permutes its terms. -/
theorem sum_xor_left (x : Byte) (f : Byte → Int) : ∑ a : Byte, f (x ^^^ a) = ∑ a : Byte, f a :=
  Equiv.sum_comp (Function.Involutive.toPerm (x ^^^ ·) fun a => by simp) f

/-- The transform of the autocorrelation sums, at one mask, is the square of the Walsh sum. -/
theorem sum_correlationSum (t : Table) (beta u : Byte) :
    ∑ a : Byte, correlationSum t beta a * bitSign (parity (a &&& u)) = walshSum t beta u * walshSum t beta u := by
  have shift (x : Byte) : ∑ a : Byte, maskSign t beta x * maskSign t beta (x ^^^ a) * bitSign (parity (a &&& u)) =
      ∑ b : Byte, maskSign t beta x * bitSign (parity (x &&& u)) * (maskSign t beta b * bitSign (parity (b &&& u))) := by
    rw [← sum_xor_left x]
    refine Finset.sum_congr rfl fun a _ => ?_
    rw [← BitVec.xor_assoc, BitVec.xor_self, BitVec.zero_xor, parity_xor_and, bitSign_xor]
    ring
  simp only [correlationSum_eq, Finset.sum_mul]
  rw [Finset.sum_comm, Finset.sum_congr rfl fun x _ => shift x, ← Finset.sum_mul_sum, walshSum_eq]

/-- The doubly transformed power spectrum, divided by 256, is the autocorrelation (R212). -/
theorem autocorrelation_eq_map (t : Table) (beta : Byte) :
    autocorrelation t beta = allBytes.map (correlationSum t beta) := by
  have power : (walsh t beta).map (fun x => x * x) = fwht (allBytes.map (correlationSum t beta)) := by
    rw [walsh_eq_map, fwht_map_allBytes, List.map_map]
    exact List.map_congr_left fun u _ => (sum_correlationSum t beta u).symm
  rw [autocorrelation, power, fwht_fwht (by simp), List.map_map, List.map_map]
  exact List.map_congr_left fun a _ => Int.mul_ediv_cancel_left _ (by decide)

theorem transparency_eq (t : Table) (beta : Byte) :
    transparency t beta = 65280 * |8 - 2 * (popcount beta : Int)| -
      ∑ a ∈ Finset.Icc 1 255, |correlationSum t beta (nthByte a)| := by
  have sum_nonzero : ((nonzeroBytes.map (correlationSum t beta)).map Int.natAbs).sum =
      ∑ a ∈ Finset.Icc 1 255, (correlationSum t beta (nthByte a)).natAbs := by
    rw [nonzeroBytes, List.map_map, List.map_map]
    rfl
  rw [transparency, autocorrelation_eq_map, drop_one_map_allBytes, sum_nonzero, Nat.cast_sum, Int.natCast_natAbs]
  simp only [Int.natCast_natAbs, Config.toDen]

theorem isGreatest_metricTo (t : Table) :
    IsGreatest { n | ∃ beta, 1 ≤ beta ∧ beta ≤ 255 ∧ n = transparency t (nthByte beta) } (metricTo t) := by
  have h := isGreatest_maxInt_map nonzeroBytes_ne_nil (transparency t)
  rw [metricTo]
  simpa only [exists_mem_nonzeroBytes] using h

end Sys2Proof.Machine

namespace Sys2Proof.Proofs

open Sys2Proof.Machine

/-- Settles O54: the maximum over the masks, each value by the autocorrelation sums. -/
theorem transparencyIsTheAutocorrelationMaximum : Obligations.TransparencyIsTheAutocorrelationMaximum := fun t => by
  simpa only [transparency_eq] using isGreatest_metricTo t

end Sys2Proof.Proofs
end

section
/-! The difference metrics of 45_metrics.md R204, R206 and R208: sums and counts over all inputs, and the largest bucket. -/

namespace Sys2Proof.Machine

open Sys2Proof.Safety

theorem metricSac_eq_sum (t : Table) :
    metricSac t = ∑ i ∈ Finset.range 8, ∑ x ∈ Finset.range 256, popcount (outDiff t (bitMask i) (nthByte x)) := by
  simp only [metricSac, sum_map_range, sum_map_allBytes_eq_sum_range]

theorem avalanche_eq_sum (t : Table) (p : Nat × Nat) :
    avalanche t p = ∑ i ∈ Finset.range 8,
      ((Finset.range 256).filter fun x => parity (outDiff t (bitMask i) (nthByte x) &&& pairMask p) = true).card := by
  simp only [avalanche, sum_map_range, countP_allBytes_eq_card]

theorem metricBicSac_eq_sum (t : Table) :
    metricBicSac t = ∑ k ∈ Finset.range 8, ∑ j ∈ Finset.range k, avalanche t (j, k) :=
  sum_map_bitPairs (avalanche t)

/-- A bucket of the difference table is the count of the rule (R208). -/
theorem ddtRow_eq_map (t : Table) (dx : Byte) : ddtRow t dx = allBytes.map (differenceCount t dx) := by
  refine List.map_congr_left fun dy _ => ?_
  rw [List.count, List.countP_map, countP_allBytes_eq_card]
  simp only [Function.comp, beq_iff_eq]
  rfl

theorem isGreatest_metricDu (t : Table) :
    IsGreatest { n | ∃ dx dy, 1 ≤ dx ∧ dx ≤ 255 ∧ dy ≤ 255 ∧ n = differenceCount t (nthByte dx) (nthByte dy) }
      (metricDu t) := by
  have h := isGreatest_maxNat_maxNat nonzeroBytes_ne_nil (List.ne_nil_of_mem (mem_allBytes 0)) (differenceCount t)
  simp only [metricDu, ddtRow_eq_map]
  simpa only [exists_mem_nonzeroBytes, exists_mem_allBytes, exists_and_left] using h

end Sys2Proof.Machine

namespace Sys2Proof.Proofs

open Sys2Proof.Machine Sys2Proof.Safety

/-- Settles O51: the sums and counts of the model over the rule's ranges. -/
theorem differenceMetricsAreCounts : Obligations.DifferenceMetricsAreCounts := fun t => by
  refine ⟨?sac, ?bicSac, isGreatest_metricDu t⟩
  case sac =>
    rw [metricSac_eq_sum]
    simp only [outDiff, bitMask_eq_nthByte]
  case bicSac =>
    rw [metricBicSac_eq_sum]
    refine Finset.sum_congr rfl fun k hk => Finset.sum_congr rfl fun j hj => ?_
    rw [avalanche_eq_sum, pairMask_eq_nthByte (mem_bitPairs.mpr ⟨Finset.mem_range.mp hj, Finset.mem_range.mp hk⟩)]
    simp only [outDiff, bitMask_eq_nthByte]

end Sys2Proof.Proofs
end

section
/-! The Moebius transform of 45_metrics.md R209 as eight operations on functions of a byte, one for each bit of the index. The
operations commute and each is its own inverse, so the transform is its own inverse; after the operations of some bits an entry
is the XOR over the indices that are below its own in those bits, so at the end it is the coefficient of the algebraic normal
form, and `AD` (R210) is the greatest weight of a monomial. -/

namespace Sys2Proof.Machine

open Sys2Proof.Safety

/-! ### One stage, entry by entry -/

theorem length_mobiusStage (h n : Nat) {l : List Bool} (hl : l.length = 2 * h * n) :
    (mobiusStage h n l).length = 2 * h * n := by
  induction n generalizing l with
  | zero => exact hl
  | succ n ih =>
    have hn : l.length = 2 * h * n + 2 * h := hl
    have hd : (l.drop (2 * h)).length = 2 * h * n := by rw [List.length_drop]; omega
    simp only [mobiusStage, List.length_append, List.length_zipWith, List.length_take, List.length_drop, ih hd]
    omega

/-- One block of a stage: an entry of the upper half takes up its partner in the lower half. -/
theorem getD_mobiusBlock {h u : Nat} {l : List Bool} (hl : 2 * h ≤ l.length) (hu : u < 2 * h) :
    (l.take h ++ List.zipWith (· ^^ ·) ((l.drop h).take h) (l.take h)).getD u false =
      (l.getD u false ^^ (decide (h ≤ u) && l.getD (u - h) false)) := by
  have hlo : (l.take h).length = h := by rw [List.length_take]; omega
  by_cases hh : h ≤ u
  · obtain ⟨v, rfl⟩ := Nat.exists_eq_add_of_le hh
    have hhi : v < (List.zipWith (· ^^ ·) ((l.drop h).take h) (l.take h)).length := by
      rw [List.length_zipWith, List.length_take, List.length_drop]; omega
    rw [List.getD_append_right _ _ _ _ (by omega), hlo, Nat.add_sub_cancel_left, List.getD_eq_getElem _ _ hhi,
      List.getD_eq_getElem _ _ (by omega), List.getD_eq_getElem _ _ (by omega)]
    simp
  · rw [List.getD_append _ _ _ _ (by omega), decide_eq_false hh]
    simp [List.getD_eq_getElem?_getD, Nat.lt_of_not_le hh]

theorem testBit_eq_decide_le {k u : Nat} (hu : u < 2 * 2 ^ k) : u.testBit k = decide (2 ^ k ≤ u) := by
  by_cases hk : 2 ^ k ≤ u
  · obtain ⟨v, rfl⟩ := Nat.exists_eq_add_of_le hk
    rw [Nat.testBit_two_pow_add_eq, Nat.testBit_lt_two_pow (by omega), decide_eq_true hk, Bool.not_false]
  · rw [Nat.testBit_lt_two_pow (Nat.lt_of_not_le hk), decide_eq_false hk]

/-- Stage `k` of R209: an entry whose index has bit `k` takes up the entry `2 ^ k` before it. -/
theorem getD_mobiusStage (k n : Nat) {u : Nat} {l : List Bool} (hl : l.length = 2 * 2 ^ k * n) (hu : u < 2 * 2 ^ k * n) :
    (mobiusStage (2 ^ k) n l).getD u false = (l.getD u false ^^ (u.testBit k && l.getD (u - 2 ^ k) false)) := by
  induction n generalizing u l with
  | zero => omega
  | succ n ih =>
    have hn : l.length = 2 * 2 ^ k * n + 2 * 2 ^ k := hl
    have hd : (l.drop (2 * 2 ^ k)).length = 2 * 2 ^ k * n := by rw [List.length_drop]; omega
    have hblock : (l.take (2 ^ k) ++ List.zipWith (· ^^ ·) ((l.drop (2 ^ k)).take (2 ^ k)) (l.take (2 ^ k))).length =
        2 * 2 ^ k := by
      simp only [List.length_append, List.length_zipWith, List.length_take, List.length_drop]; omega
    rw [mobiusStage]
    by_cases hb : u < 2 * 2 ^ k
    · rw [List.getD_append _ _ _ _ (hblock ▸ hb), getD_mobiusBlock (by omega) hb, testBit_eq_decide_le hb]
    · obtain ⟨w, rfl⟩ := Nat.exists_eq_add_of_le (Nat.le_of_not_lt hb)
      have getD_rest (x : Nat) : (l.drop (2 * 2 ^ k)).getD x false = l.getD (2 * 2 ^ k + x) false := by
        simp [List.getD_eq_getElem?_getD]
      have same_bit : (2 * 2 ^ k + w).testBit k = w.testBit k := by
        rw [← pow_succ', Nat.testBit_two_pow_add_gt (Nat.lt_succ_self k)]
      rw [List.getD_append_right _ _ _ _ (by omega), hblock, Nat.add_sub_cancel_left, ih hd (by omega), same_bit,
        getD_rest, getD_rest]
      cases hw : w.testBit k with
      | false => rfl
      | true => rw [Nat.add_sub_assoc (Nat.ge_two_pow_of_testBit hw)]

/-! ### Flipping a bit of an index -/

theorem getLsbD_xor_bitMask_same (u : Byte) (k : Fin 8) : (u ^^^ bitMask k.val).getLsbD k.val = !u.getLsbD k.val := by
  rw [BitVec.getLsbD_xor, getLsbD_bitMask, decide_eq_true rfl, Bool.xor_true]

theorem getLsbD_xor_bitMask_of_ne (u : Byte) {j k : Fin 8} (h : j ≠ k) :
    (u ^^^ bitMask k.val).getLsbD j.val = u.getLsbD j.val := by
  rw [BitVec.getLsbD_xor, getLsbD_bitMask, decide_eq_false h.symm, Bool.xor_false]

/-- Clearing bit `k` of an index subtracts its weight. -/
theorem toNat_xor_bitMask {k : Fin 8} {u : Byte} (hu : u.getLsbD k.val = true) :
    (u ^^^ bitMask k.val).toNat = u.toNat - 2 ^ k.val := by
  have cleared : (u ^^^ bitMask k.val) &&& bitMask k.val = 0#8 := by
    have hk : (u ^^^ bitMask k.val).getLsbD k.val = false := by rw [getLsbD_xor_bitMask_same, hu]; rfl
    rw [bitMask, BitVec.and_twoPow, ← bitMask, hk]
    rfl
  have restored : (u ^^^ bitMask k.val) ||| bitMask k.val = u := byte_ext fun j => by
    rw [BitVec.getLsbD_or, getLsbD_bitMask]
    obtain rfl | hne := eq_or_ne j k
    · rw [decide_eq_true rfl, Bool.or_true, hu]
    · rw [getLsbD_xor_bitMask_of_ne u hne, decide_eq_false hne.symm, Bool.or_false]
  have weight : (bitMask k.val).toNat = 2 ^ k.val := by
    rw [bitMask, BitVec.toNat_twoPow]
    exact Nat.mod_eq_of_lt (Nat.pow_lt_pow_right (by decide) k.isLt)
  have h := BitVec.toNat_add_of_and_eq_zero cleared
  rw [BitVec.add_eq_or_of_and_eq_zero _ _ cleared, restored, weight] at h
  omega

/-! ### The transform as operations on functions -/

/-- Stage `k` of R209 at the entry of index `u`: the entry without bit `k` is XORed into the one with it. -/
def foldBit (k : Fin 8) (f : Byte → Bool) (u : Byte) : Bool := f u ^^ (u.getLsbD k.val && f (u ^^^ bitMask k.val))

theorem mobiusStage_map_allBytes (k : Fin 8) (f : Byte → Bool) :
    mobiusStage (2 ^ k.val) (128 / 2 ^ k.val) (allBytes.map f) = allBytes.map (foldBit k f) := by
  have blocks : 2 * 2 ^ k.val * (128 / 2 ^ k.val) = 256 := by decide +revert
  have hlen : (allBytes.map f).length = 2 * 2 ^ k.val * (128 / 2 ^ k.val) := by simp [blocks]
  refine (eq_map_allBytes ((length_mobiusStage _ _ hlen).trans blocks) false).trans (List.map_congr_left fun u _ => ?_)
  rw [getD_mobiusStage _ _ hlen (blocks ▸ u.isLt), getD_map_allBytes f _ u.isLt, nthByte_toNat, BitVec.testBit_toNat,
    foldBit]
  cases hu : u.getLsbD k.val with
  | false => rfl
  | true => rw [← toNat_xor_bitMask hu, getD_map_allBytes f _ (BitVec.isLt _), nthByte_toNat]

/-- The stages of R209 in their order. -/
def foldBits (l : List (Fin 8)) (f : Byte → Bool) : Byte → Bool := l.foldl (fun g k => foldBit k g) f

theorem mobius_map_allBytes (f : Byte → Bool) : mobius (allBytes.map f) = allBytes.map (foldBits (List.finRange 8) f) := by
  have stages (l : List (Fin 8)) :
      (l.map fun k => 2 ^ k.val).foldl (fun l h => mobiusStage h (128 / h) l) (allBytes.map f) =
        allBytes.map (foldBits l f) := by
    induction l generalizing f with
    | nil => rfl
    | cons k l ih => rw [List.map_cons, List.foldl_cons, mobiusStage_map_allBytes, ih]; rfl
  exact stages (List.finRange 8)

/-! ### The transform is its own inverse -/

theorem foldBit_foldBit (k : Fin 8) (f : Byte → Bool) : foldBit k (foldBit k f) = f := by
  funext u
  simp only [foldBit, getLsbD_xor_bitMask_same]
  cases u.getLsbD k.val <;> simp

theorem foldBit_comm (j k : Fin 8) (f : Byte → Bool) : foldBit j (foldBit k f) = foldBit k (foldBit j f) := by
  obtain rfl | hne := eq_or_ne j k
  · rfl
  have regroup : ∀ a b w x y z : Bool,
      ((w ^^ (b && x)) ^^ (a && (y ^^ (b && z)))) = ((w ^^ (a && y)) ^^ (b && (x ^^ (a && z)))) := by decide
  funext u
  simp only [foldBit, getLsbD_xor_bitMask_of_ne _ hne, getLsbD_xor_bitMask_of_ne _ hne.symm]
  rw [BitVec.xor_assoc, BitVec.xor_assoc, BitVec.xor_comm (bitMask j.val)]
  exact regroup ..

theorem foldBits_foldBit (l : List (Fin 8)) (k : Fin 8) (f : Byte → Bool) :
    foldBits l (foldBit k f) = foldBit k (foldBits l f) := by
  induction l generalizing f with
  | nil => rfl
  | cons j l ih => exact (congrArg (foldBits l) (foldBit_comm j k f)).trans (ih _)

theorem foldBits_foldBits (l : List (Fin 8)) (f : Byte → Bool) : foldBits l (foldBits l f) = f := by
  induction l generalizing f with
  | nil => rfl
  | cons k l ih =>
    calc foldBits l (foldBit k (foldBits l (foldBit k f)))
        = foldBits l (foldBits l (foldBit k (foldBit k f))) := by rw [foldBits_foldBit l k (foldBit k f)]
      _ = f := by rw [foldBit_foldBit, ih]

theorem mobius_mobius {l : List Bool} (hl : l.length = 256) : mobius (mobius l) = l := by
  rw [eq_map_allBytes hl false, mobius_map_allBytes, mobius_map_allBytes, foldBits_foldBits]

/-! ### The algebraic normal form -/

/-- `x` agrees with `u` outside the bits of `l`, and has no bit that `u` has not. -/
abbrev BelowIn (l : List (Fin 8)) (u x : Byte) : Prop :=
  ∀ j : Fin 8, x.getLsbD j.val = u.getLsbD j.val ∨ (j ∈ l ∧ u.getLsbD j.val = true)

theorem belowIn_nil_iff {u x : Byte} : BelowIn [] u x ↔ x = u :=
  ⟨fun h => byte_ext fun j => (h j).elim id fun hj => absurd hj.1 List.not_mem_nil, fun h _ => .inl (h ▸ rfl)⟩

/-- With every bit admitted it is the rule's condition `x AND u = x` (R209). -/
theorem belowIn_finRange_iff {u x : Byte} : BelowIn (List.finRange 8) u x ↔ x &&& u = x := by
  refine ⟨fun h => byte_ext fun j => ?_, fun h j => ?_⟩
  · rw [BitVec.getLsbD_and]
    obtain e | ⟨-, e⟩ := h j
    · rw [e, Bool.and_self]
    · rw [e, Bool.and_true]
  · cases hu : u.getLsbD j.val with
    | true => exact .inr ⟨List.mem_finRange j, rfl⟩
    | false => exact .inl (by rw [← h, BitVec.getLsbD_and, hu, Bool.and_false])

/-- Below `u` in one more bit: below `u` with the bit as it is, or below `u` without it. -/
theorem belowIn_cons_iff {k : Fin 8} {l : List (Fin 8)} {u x : Byte} :
    BelowIn (k :: l) u x ↔ BelowIn l u x ∨ (u.getLsbD k.val = true ∧ BelowIn l (u ^^^ bitMask k.val) x) := by
  constructor
  · intro h
    by_cases hk : x.getLsbD k.val = u.getLsbD k.val
    · refine .inl fun j => (h j).elim .inl fun ⟨hj, e⟩ => ?_
      obtain rfl | hj := List.mem_cons.mp hj
      · exact .inl hk
      · exact .inr ⟨hj, e⟩
    · refine .inr ⟨((h k).resolve_left hk).2, fun j => ?_⟩
      obtain rfl | hne := eq_or_ne j k
      · exact .inl ((Bool.eq_not_of_ne hk).trans (getLsbD_xor_bitMask_same u j).symm)
      · rw [getLsbD_xor_bitMask_of_ne u hne]
        exact (h j).imp_right (And.imp_left (List.mem_of_ne_of_mem hne))
  · rintro (h | ⟨huk, h⟩) j
    · exact (h j).imp_right (And.imp_left (List.mem_cons_of_mem k))
    · obtain rfl | hne := eq_or_ne j k
      · exact .inr ⟨List.mem_cons_self, huk⟩
      · have hj := h j
        rw [getLsbD_xor_bitMask_of_ne u hne] at hj
        exact hj.imp_right (And.imp_left (List.mem_cons_of_mem k))

/-- An index below `u` in other bits has bit `k` of `u`, so it is not below `u` with the bit changed. -/
theorem BelowIn.not_xor_bitMask {k : Fin 8} {l : List (Fin 8)} {u x : Byte} (hk : k ∉ l) (h : BelowIn l u x) :
    ¬BelowIn l (u ^^^ bitMask k.val) x := fun h' => by
  have e := (h k).resolve_right fun hj => hk hj.1
  have e' := (h' k).resolve_right fun hj => hk hj.1
  rw [getLsbD_xor_bitMask_same, e] at e'
  exact Bool.not_ne_self _ e'.symm

/-- The XOR of `f` over the indices below `u`. -/
def parityBelow (l : List (Fin 8)) (f : Byte → Bool) (u : Byte) : Bool :=
  (Finset.univ.filter fun x => BelowIn l u x ∧ f x = true).card % 2 == 1

theorem mod_two_beq_one_add (m n : Nat) : ((m + n) % 2 == 1) = (m % 2 == 1 ^^ n % 2 == 1) := by
  obtain hm | hm := Nat.mod_two_eq_zero_or_one m <;> obtain hn | hn := Nat.mod_two_eq_zero_or_one n <;>
    rw [Nat.add_mod, hm, hn] <;> rfl

theorem parityBelow_nil (f : Byte → Bool) (u : Byte) : parityBelow [] f u = f u := by
  simp only [parityBelow, belowIn_nil_iff, Finset.filter_and, Finset.filter_eq', Finset.mem_univ, if_true]
  cases hf : f u <;> simp [hf]

theorem parityBelow_cons {k : Fin 8} {l : List (Fin 8)} (hk : k ∉ l) (f : Byte → Bool) (u : Byte) :
    parityBelow (k :: l) f u = (parityBelow l f u ^^ (u.getLsbD k.val && parityBelow l f (u ^^^ bitMask k.val))) := by
  simp only [parityBelow, belowIn_cons_iff]
  cases u.getLsbD k.val with
  | false => simp
  | true =>
    simp only [true_and, Bool.true_and, or_and_right, Finset.filter_or]
    rw [Finset.card_union_of_disjoint, mod_two_beq_one_add]
    exact Finset.disjoint_filter.mpr fun x _ h h' => h.1.not_xor_bitMask hk h'.1

theorem foldBits_eq_parityBelow {l : List (Fin 8)} (hl : l.Nodup) (f : Byte → Bool) (u : Byte) :
    foldBits l f u = parityBelow l f u := by
  induction l generalizing u with
  | nil => exact (parityBelow_nil f u).symm
  | cons k l ih =>
    obtain ⟨hk, hl⟩ := List.nodup_cons.mp hl
    rw [parityBelow_cons hk, ← ih hl, ← ih hl]
    exact congrFun (foldBits_foldBit l k f) u

theorem anfCoefficient_eq (t : Table) (i : Nat) (u : Byte) :
    anfCoefficient t i u = parityBelow (List.finRange 8) (fun x => (atByte t x).getLsbD i) u := by
  simp only [anfCoefficient, parityBelow, belowIn_finRange_iff]
  rw [card_filter_nthByte fun x => x &&& u = x ∧ (atByte t x).getLsbD i = true]

/-- The transform of an output bit's truth table is its algebraic normal form (R209). -/
theorem mobius_outputBit (t : Table) (i : Nat) :
    mobius (t.toList.map fun y => y.getLsbD i) = allBytes.map (anfCoefficient t i) := by
  rw [toList_eq_map_allBytes, List.map_map, mobius_map_allBytes]
  refine List.map_congr_left fun u _ => ?_
  rw [foldBits_eq_parityBelow (List.nodup_finRange 8), anfCoefficient_eq]
  rfl

/-! ### The algebraic degree -/

theorem bitDegree_eq_sup (t : Table) (i : Nat) :
    bitDegree t i = (Finset.range 256).sup fun u =>
      if anfCoefficient t i (nthByte u) then popcount (nthByte u) else 0 := by
  rw [bitDegree, mobius_outputBit, ← List.map_prod_right_eq_zip, List.map_map, maxNat_map_allBytes]
  simp only [Function.comp, Bool.cond_eq_ite]

theorem metricAd_eq_sup (t : Table) :
    metricAd t = (Finset.range 8 ×ˢ Finset.range 256).sup fun p =>
      if anfCoefficient t p.1 (nthByte p.2) then popcount (nthByte p.2) else 0 := by
  rw [metricAd, maxNat_map_range, Finset.sup_product_left]
  exact Finset.sup_congr rfl fun i _ => bitDegree_eq_sup t i

end Sys2Proof.Machine

namespace Sys2Proof.Proofs

open Sys2Proof.Machine

/-- Settles O52: the stages of the transform commute and undo themselves, and together they sum over the indices below. -/
theorem degreeIsTheLargestMonomial : Obligations.DegreeIsTheLargestMonomial :=
  ⟨fun _ => mobius_mobius, fun t =>
    ⟨fun i u _ hu => by rw [mobius_outputBit, getD_map_allBytes _ _ hu], metricAd_eq_sup t⟩⟩

end Sys2Proof.Proofs
end

section
/-! The command `ANALYZE` of 45_metrics.md R200: the exact metrics on a complete S-box, `InvalidLength` on another. -/

namespace Sys2Proof.Machine

open Sys2Proof.Safety

theorem execAnalyze_of_incomplete {s : State} (hl : s.sbLen ≠ 256) : exec .analyze s = .next (failedWith 2 s) := by
  rw [exec, execAnalyze, if_pos hl, raise_eq_failedWith]
  rfl

theorem execAnalyze_of_complete {s : State} (hl : s.sbLen = 256) :
    exec .analyze s = .next { s with
      nl := BitVec.ofNat 8 (metricNl s.sbox), sacNum := BitVec.ofNat 15 (metricSac s.sbox)
      bicNl := BitVec.ofNat 8 (metricBicNl s.sbox), bicSacNum := BitVec.ofNat 16 (metricBicSac s.sbox)
      lapNum := BitVec.ofNat 9 (metricLap s.sbox), du := BitVec.ofNat 9 (metricDu s.sbox)
      dapNum := BitVec.ofNat 9 (metricDu s.sbox), ad := BitVec.ofNat 4 (metricAd s.sbox)
      ci := BitVec.ofNat 4 (metricCi s.sbox), toNum := BitVec.ofInt 32 (metricTo s.sbox), anaValid := true, err := 0 } :=
  if_neg (not_not.mpr hl)

end Sys2Proof.Machine

namespace Sys2Proof.Proofs

open Sys2Proof.Machine Sys2Proof.Safety

/-- Settles O48: that no register truncates its metric is the invariant's clause on the analysed S-box, which the reset
state with this S-box meets. -/
theorem analyzeWritesExactMetrics : Obligations.AnalyzeWritesExactMetrics :=
  ⟨rfl, fun s => ⟨execAnalyze_of_incomplete, fun hl => ⟨_, execAnalyze_of_complete hl, rfl,
    (((inv_reset.withSbox s.sbox 256).withAnalysis rfl).analysed rfl).2⟩⟩⟩

end Sys2Proof.Proofs
end

section
/-! The control commands of 46_control.md R230 to R233: each succeeds from every state, and clears at most one length, with
the result flags for the S-box's. -/

namespace Sys2Proof.Machine

theorem exec_nop (s : State) : exec .nop s = .next { s with err := 0 } := rfl

theorem exec_sbclr (s : State) :
    exec .sbclr s = .next { s with sbLen := 0, chkValid := false, anaValid := false, err := 0 } := rfl

theorem exec_keyclr (s : State) : exec .keyclr s = .next { s with keyLen := 0, err := 0 } := rfl

theorem exec_blkclr (s : State) : exec .blkclr s = .next { s with blkLen := 0, err := 0 } := rfl

end Sys2Proof.Machine

namespace Sys2Proof.Proofs

open Sys2Proof.Machine

/-- Settles O19: the words are the encoder's, evaluated, and the effects are the four equations of `exec`. -/
theorem controlCommandsClear : Obligations.ControlCommandsClear :=
  ⟨⟨rfl, rfl, rfl, rfl⟩, fun s => ⟨exec_nop s, exec_sbclr s, exec_keyclr s, exec_blkclr s⟩⟩

end Sys2Proof.Proofs
end

section
/-! The failures of 60_exceptions.md as one rule over the commands: which conditions fail a command, with which code (R261),
and that a command that has ended succeeded or only recorded its error (R262, R263). -/

namespace Sys2Proof.Machine

open Sys2Proof.Safety

theorem succeeds_succeed (s : State) : Succeeds (.next (succeed s)) := ⟨_, rfl, rfl⟩

/-- How a command other than `SBFIND` concludes: in success (R263), or in an error of its own (R262), which is never the
illegal word's. -/
inductive Concluded (s : State) : Outcome → Prop
  | success (t : State) (ht : t.esticky = s.esticky) : Concluded s (.next (succeed t))
  | failure (e : ErrCode) (he : 2 ≤ e.code := by decide) : Concluded s (.next (raise e s))

theorem Concluded.ite {s : State} {c : Prop} [Decidable c] {o o' : Outcome} (h : Concluded s o) (h' : Concluded s o') :
    Concluded s (if c then o else o') := by
  split
  · exact h
  · exact h'

/-- Every branch of every command but `SBFIND` ends in `succeed` or in `raise`. -/
theorem concluded_exec {i : Instr} (s : State) (hi : ∀ cap, i ≠ .sbfind cap) : Concluded s (exec i s) := by
  cases i with
  | sbfind cap => exact absurd rfl (hi cap)
  | nop | sbclr | keyclr | blkclr | gfmul | gfinv | affrnd | afftst | affapp => exact .success _ rfl
  | sbbld | fwht => exact .ite (.success _ rfl) (.failure _)
  | sbchk | analyze => exact .ite (.failure _) (.success _ rfl)
  | kexp | enc => exact .ite (.failure _) (.ite (.failure _) (.success _ rfl))
  | dec => exact .ite (.failure _) (.ite (.failure _) (.ite (.failure _) (.success _ rfl)))

theorem Concluded.of_next {s t : State} (h : Concluded s (.next t)) :
    (t.err = 0 ∧ t.esticky = s.esticky) ∨ ∃ n, 2 ≤ n ∧ n ≤ 8 ∧ t = failedWith n s := by
  cases h with
  | success t ht => exact .inl ⟨rfl, ht⟩
  | failure e he => exact .inr ⟨e.code, he, (code_range e).2, raise_eq_failedWith e s⟩

/-- A trial that ends the search has committed a candidate or given up (R128). -/
theorem searchTrial_succeeds_or_fails {cap : Cap} {n : Nat} {s : State} (h : (searchTrial cap n s).search = none) :
    ((searchTrial cap n s).err = 0 ∧ (searchTrial cap n s).esticky = s.esticky) ∨
      searchTrial cap n s = failedWith 6 { s with rngPos := s.rngPos + 64, search := none } := by
  generalize hu : searchTrial cap n s = u at h
  cases hu ▸ trialEffect cap n s with
  | commit m => exact .inl ⟨rfl, rfl⟩
  | giveUp => exact .inr (raise_eq_failedWith ..)
  | goOn hc => cases h

end Sys2Proof.Machine

namespace Sys2Proof.Proofs

open Sys2Proof.Machine Sys2Proof.Safety

/-- Settles O20: each failing row is the command's failing equation, and each success one of its other branch. -/
theorem failuresFollowTheCauseTable : Obligations.FailuresFollowTheCauseTable := fun s =>
  ⟨execSbbld_of_singular, fun h => ⟨_, execSbbld_of_invertible h, rfl⟩,
    execSbchk_of_incomplete, fun hl => ⟨_, execSbchk_of_complete hl, rfl⟩,
    execKexp_of_key_incomplete, execKexp_of_sbox_incomplete, fun hk hl => ⟨_, execKexp_of_complete hk hl, rfl⟩,
    execEnc_of_no_engine, execEnc_of_block_incomplete, fun hv hb => ⟨_, execEnc_of_ready hv hb, rfl⟩,
    execDec_of_no_engine, execDec_of_block_incomplete, execDec_of_not_bijective,
    fun hv hb hj => ⟨_, execDec_of_ready hv hb hj, rfl⟩,
    (fwhtCommandIsExact.2 s).2, fun h => ⟨_, execFwht_of_inRange ((workInRange_iff s.w).mpr h), rfl⟩,
    execAnalyze_of_incomplete, fun hl => ⟨_, execAnalyze_of_complete hl, rfl⟩,
    succeeds_succeed _, succeeds_succeed _, succeeds_succeed _, succeeds_succeed _,
    fun _ _ => succeeds_succeed _, fun _ => succeeds_succeed _,
    succeeds_succeed _, succeeds_succeed _, fun _ => succeeds_succeed _⟩

/-- Settles O21: `SBFIND` ends with a trial that ends the search, and every other command concludes. -/
theorem commandsSucceedOrOnlyRecordAnError : Obligations.CommandsSucceedOrOnlyRecordAnError := by
  refine ⟨fun i s t h ht hs => ?command, fun f s t h ht => ?laterTrial⟩
  case command =>
    by_cases hi : ∃ cap, i = .sbfind cap
    · obtain ⟨cap, rfl⟩ := hi
      cases h
      refine (searchTrial_succeeds_or_fails ht).imp_right fun failed => ⟨6, by decide, by decide, ?_⟩
      rw [failed, ← hs]
      exact ⟨rfl, .inr ⟨cap, rfl, rfl⟩⟩
    · have concluded : Concluded s (.next t) := h ▸ concluded_exec s (not_exists.mp hi)
      refine concluded.of_next.imp_right fun ⟨n, hlo, hhi, failed⟩ => ?_
      subst failed
      exact ⟨n, hlo, hhi, rfl, .inl rfl⟩
  case laterTrial =>
    obtain ⟨u, hu, rfl⟩ := commandAnswer_eq_next h
    cases hu
    refine (searchTrial_succeeds_or_fails ht).imp_right fun failed => ?_
    rw [failed]
    rfl

end Sys2Proof.Proofs
end

section
/-! No step stops the core (93_implementation_defined.md part 1): every command, write and trial has a next state. With it go
two rules of 70_reset_and_hazards.md: an `SBFIND 0` whose candidates are singular goes on (R288), and `RST` ends whatever runs
(R280). -/

namespace Sys2Proof.Machine

/-- The outcome is a next state: neither a fault nor a refusal. -/
def Proceeds (o : Outcome) : Prop := ∃ t : State, o = .next t

theorem proceeds_next (t : State) : Proceeds (.next t) := ⟨t, rfl⟩

theorem Concluded.proceeds {s : State} {o : Outcome} (h : Concluded s o) : Proceeds o := by
  cases h <;> exact proceeds_next _

theorem Proceeds.commandAnswer {o : Outcome} (h : Proceeds o) : Proceeds (commandAnswer o) := by
  obtain ⟨t, rfl⟩ := h
  exact proceeds_next _

/-- `SBFIND` makes its first trial, and every other command concludes. -/
theorem proceeds_exec (i : Instr) (s : State) : Proceeds (exec i s) := by
  by_cases hi : ∃ cap, i = .sbfind cap
  · obtain ⟨cap, rfl⟩ := hi
    exact proceeds_next (searchTrial cap 0 s)
  · exact (concluded_exec s (not_exists.mp hi)).proceeds

/-- A word that is no command raises `IllegalCommand` (R94). -/
theorem proceeds_runCommand (word : Word) (s : State) : Proceeds (runCommand word s) := by
  unfold runCommand
  split
  · exact proceeds_exec _ s
  · exact proceeds_next _

/-- A write is refused by the port, a command word, or a store. -/
theorem proceeds_hostWrite (addr : Addr) (data : Word) (s : State) : Proceeds (hostWrite addr data s) := by
  unfold hostWrite
  split
  · exact proceeds_next _
  · exact (proceeds_runCommand data s).commandAnswer
  · exact proceeds_next _

theorem proceeds_hostMove (m : HostMove) (s : State) : Proceeds (hostMove m s) := by
  cases m with
  | write addr data => exact proceeds_hostWrite addr data s
  | read | idle | rst => exact proceeds_next _

theorem proceeds_searchStep (f : Search) (s : State) : Proceeds (searchStep f s) := (proceeds_next _).commandAnswer

theorem proceeds_step (s : State) : Proceeds (step s) := by
  rcases step_cases s with ⟨rest, -, e⟩ | ⟨f, rest, -, -, e⟩ | ⟨f, -, -, -, e⟩ | ⟨-, -, e⟩ |
    ⟨m, rest, -, -, -, e⟩ <;> rw [e]
  · exact proceeds_next _
  · exact proceeds_searchStep f _
  · exact proceeds_searchStep f _
  · exact proceeds_next _
  · exact proceeds_hostMove m _

end Sys2Proof.Machine

namespace Sys2Proof.Proofs

open Sys2Proof.Machine Sys2Proof.Safety

/-- Settles O17: the step is the reset event, whose every register is that of the reset state. -/
theorem resetEventPutsTheResetState : Obligations.ResetEventPutsTheResetState := fun s rest hi =>
  ⟨resetEvent { s with inbox := rest }, step_rst s rest hi,
    rfl, rfl, rfl, rfl, rfl, rfl, rfl, rfl, rfl, rfl, rfl, rfl, rfl, rfl, rfl, rfl, rfl, rfl⟩

/-- Settles O33: the last of the steps is trial `n`, which without a cap goes on. -/
theorem sbfindWithoutCapGoesOn : Obligations.SbfindWithoutCapGoesOn := by
  intro s n rest hs hi hr hm
  refine (run_sbfind_eq_searchStep hs hi hr (fun k hk => hm k hk.le) (.inl rfl)).trans ?_
  have singular : isInvertible (matrixAt (beforeTrial s rest n) (beforeTrial s rest n).rngPos) = false := hm n le_rfl
  rw [searchStep, searchTrial_goOn 0 n _ singular (.inl rfl), commandAnswer_next]
  rfl

/-- Settles O8: in each case of a step the outcome is a next state. -/
theorem everyStateHasANextState : Obligations.EveryStateHasANextState := proceeds_step

end Sys2Proof.Proofs
end
